-- ==== Sys2Proof/Word.lean ====
section
/-! DEFINITION. The word and byte types of U1BPP (00_scope.md R6: `XLEN` = 32; R7: a byte is 8 bits). -/

namespace Sys2Proof

/-- A register value, a command word or a channel mask: 32 bits (R6, R21). -/
abbrev Word := BitVec 32

/-- One byte of `SRC`, `PAL` or `OUT` (R7, R50). -/
abbrev Byte := BitVec 8

end Sys2Proof
end

