-- ==== Sys2Proof/Syntax.lean ====
section
/-! DEFINITION. The commands of U1BPP, one constructor per row of spec/opcode_table.json (30_encoding.md R72). -/

namespace Sys2Proof

/-- A command. The one operand field is `CH`, an unsigned 2-bit number that selects `ch[CH]` (R71, R73). -/
inductive Instr where
  /-- `NOP` (R130). -/
  | nop
  /-- `INIT` (R131). -/
  | init
  /-- `ANALYZE c` (R91). -/
  | analyze (ch : BitVec 2)
  /-- `LDMASK c` (R93). -/
  | ldmask (ch : BitVec 2)
  /-- `LDPAL` (R100). -/
  | ldpal
  /-- `UNPACK` (R110). -/
  | unpack
  deriving DecidableEq, Repr

end Sys2Proof
end

