-- ==== Sys2Proof/WellFormed.lean ====
section
/-! DEFINITION. Which commands are legal, and the names of the reasons a command word is illegal (30_encoding.md R71, R74). -/

namespace Sys2Proof

/-- A command is well formed when its channel, if it has one, is 0, 1 or 2 (R71: "3 is never legal"). -/
def Instr.wellFormed : Instr → Bool
  | .nop => true
  | .init => true
  | .analyze ch => ch != 3#2
  | .ldmask ch => ch != 3#2
  | .ldpal => true
  | .unpack => true

/-- The four clauses of R74, each a reason why a word is illegal. -/
inductive IllegalWord where
  /-- `w[31:10] != 0`. -/
  | reservedBits
  /-- `w[7:0] > 0x05`. -/
  | unknownOp
  /-- `w[9:8] = 3` with ANALYZE or LDMASK. -/
  | channelThree
  /-- `w[9:8] != 0` with NOP, INIT, LDPAL or UNPACK. -/
  | channelNotZero
  deriving DecidableEq, Repr

end Sys2Proof
end

