-- ==== Sys2Proof/Decode.lean ====
section
/-! DEFINITION. The decoder of command words, total on all 2^32 words, and the encoder (30_encoding.md R71 to R76). -/

namespace Sys2Proof

/-- The field `OP`, bits [7:0] (R71). -/
def opField (w : Word) : BitVec 8 := w.extractLsb' 0 8

/-- The field `CH`, bits [9:8] (R71). -/
def chField (w : Word) : BitVec 2 := w.extractLsb' 8 2

/-- The field `RSV`, bits [31:10] (R71). -/
def rsvField (w : Word) : BitVec 22 := w.extractLsb' 10 22

/-- A command that has no operand: `CH` must be 0 (R71, R74). -/
def decodePlain (ch : BitVec 2) (i : Instr) : Except IllegalWord Instr :=
  if ch = 0#2 then .ok i else .error .channelNotZero

/-- A command that selects a channel: `CH` must be 0, 1 or 2 (R71, R74). -/
def decodeChannel (ch : BitVec 2) (f : BitVec 2 → Instr) : Except IllegalWord Instr :=
  if ch = 3#2 then .error .channelThree else .ok (f ch)

/-- The command a word encodes, or the reason it is illegal (R72, R74, R75). -/
def decode (w : Word) : Except IllegalWord Instr :=
  if rsvField w ≠ 0#22 then .error .reservedBits
  else match (opField w).toNat with
    | 0 => decodePlain (chField w) .nop
    | 1 => decodePlain (chField w) .init
    | 2 => decodeChannel (chField w) .analyze
    | 3 => decodeChannel (chField w) .ldmask
    | 4 => decodePlain (chField w) .ldpal
    | 5 => decodePlain (chField w) .unpack
    | _ => .error .unknownOp

/-- Format `C`: `OP` at bit 0, `CH` at bit 8, `RSV` = 0 (R71). -/
def commandWord (op : BitVec 8) (ch : BitVec 2) : Word := BitVec.ofNat 32 (op.toNat + 2 ^ 8 * ch.toNat)

/-- The operation code of a command (R72). -/
def opcode : Instr → BitVec 8
  | .nop => 0x00#8
  | .init => 0x01#8
  | .analyze _ => 0x02#8
  | .ldmask _ => 0x03#8
  | .ldpal => 0x04#8
  | .unpack => 0x05#8

/-- The channel field of a command; 0 for a command that selects none (R71). -/
def channelOf : Instr → BitVec 2
  | .nop => 0#2
  | .init => 0#2
  | .analyze ch => ch
  | .ldmask ch => ch
  | .ldpal => 0#2
  | .unpack => 0#2

/-- The word of a command (R71, R72). -/
def encode (i : Instr) : Word := commandWord (opcode i) (channelOf i)

/-- The command word whose low `nbits` bits are those of `w` and whose other bits are 0. A command is one 32-bit word
and is carried whole as write data, so no byte order enters (R51, R71, log 10). -/
def tableWord (nbits w : Nat) : Word := BitVec.ofNat 32 (w % 2 ^ nbits)

/-- What the decoder reads from a row's bits, numbered as spec/opcode_table.json numbers them. -/
def decodeTableWord (nbits w : Nat) : Option Instr := (decode (tableWord nbits w)).toOption

end Sys2Proof
end

