-- ==== Sys2Proof/Config.lean ====
section
/-! DEFINITION. What the spec leaves to the implementation: the two OPEN capacities of 00_scope.md R6 and the
contents of bytes nothing has written. Each is a constant with no body, so no proof can see which value it has. -/

namespace Sys2Proof.Config

/-- `PAL_CAP - 8`, so that `8 + palCapAbove8` runs through exactly the legal values of `PAL_CAP` (R6). -/
opaque palCapAbove8 : Fin 4294967288

/-- `OUT_CAP` (R6): any value from 0 to 2^32 - 1. -/
opaque outCapValue : Fin 4294967296

/-- What a byte of `SRC` that the host has not placed holds (R166 item 6: "whatever lies there"). -/
opaque srcInitial : Nat → Byte

/-- What a byte of `PAL` that LDPAL has not written holds (R42: unspecified). -/
opaque palInitial : Nat → Byte

/-- What a byte of `OUT` that UNPACK has not written holds (R42: unspecified). -/
opaque outInitial : Nat → Byte

/-- The parameter `PAL_CAP`, `8 <= PAL_CAP <= 2^32 - 1` (R6). -/
def palCap : Nat := 8 + palCapAbove8.val

/-- The parameter `OUT_CAP`, `0 <= OUT_CAP <= 2^32 - 1` (R6). -/
def outCap : Nat := outCapValue.val

end Sys2Proof.Config
end

