-- ==== Sys2Proof/Machine/State.lean ====
section
/-! DEFINITION. The state of one U1BPP instance (10_state.md R20 to R44), the host's side of it that a step reads (the
input bytes, the parameters, the events issued and the data returned), and its value after reset. -/

namespace Sys2Proof.Machine

/-- A non-zero value of `STATUS.ERR` (60_exceptions.md R141). The numbers are `FailCode.number`. -/
inductive FailCode where
  /-- Code 1: input buffer exhausted. -/
  | ioError
  /-- Code 2: structurally malformed. -/
  | fileInvalid
  /-- Code 3: valid but not implemented. -/
  | fileNotSupported
  /-- Code 4: palette or image larger than its memory. -/
  | outOfMemory
  /-- Code 5: an illegal command word. -/
  | badCmd
  deriving DecidableEq, Repr

/-- The registers of the space `REG`, by the names of 10_state.md R21. -/
inductive Reg where
  | cmd | status | cfg | arg | srcLen | pos | fileSize | dataOffset | width | height | palSize
  | palLen | outLen | outStride
  | maskR | lowbitR | rangeR | maskG | lowbitG | rangeG | maskB | lowbitB | rangeB
  deriving DecidableEq, Repr

/-- A channel-mask record `ch[c]` (R36). -/
structure ChannelRecord where
  mask : Word
  lowBit : Word
  range : Word
  deriving DecidableEq, Repr

/-- A byte memory: the bytes something has written, by address. Canonical form: `Memory.wf`. -/
abbrev Memory := List Host.Cell

/-- A host transaction (30_encoding.md R70). -/
inductive Transaction where
  /-- `WR off, data`: write the register at byte offset `off`. -/
  | wr (off : Nat) (data : Word)
  /-- `RD off`: read the register at byte offset `off`. -/
  | rd (off : Nat)
  /-- `OUTRD addr`: read one byte of `OUT`. -/
  | outrd (addr : Word)
  deriving DecidableEq, Repr

/-- Something the outside world does to the block, between two steps. -/
inductive HostEvent where
  /-- The host issues a transaction. -/
  | issue (t : Transaction)
  /-- Hardware reset (70_reset_and_hazards.md R160). -/
  | hardReset
  /-- The host puts a byte into its own memory `SRC` (R39, R59; log 3). -/
  | placeSrc (addr : Word) (b : Byte)
  deriving DecidableEq, Repr

/-- Data a read transaction returned (R70: `RD` 32 bits, `OUTRD` 8 bits). -/
inductive Reply where
  | word (v : Word)
  | byte (b : Byte)
  deriving DecidableEq, Repr

/-- The state. `err` to `out` are the block's (R20); `src` is the host's memory (R39); `palCap` and `outCap` are the
parameters of the instance (R6), which no step changes; `pending` and `replies` are the model's own (logs 1 and 4). -/
structure State where
  /-- `STATUS.ERR`: `none` is code 0, "no failure" (R23, R141). -/
  err : Option FailCode
  /-- `STATUS.DONE` (R23). -/
  done : Bool
  /-- `CFG` (R24). -/
  cfg : Word
  /-- `ARG` (R25). -/
  arg : Word
  /-- `SRC_LEN` (R26). -/
  srcLen : Word
  /-- `POS` (R27). -/
  pos : Word
  /-- `FILE_SIZE` (R28). -/
  fileSize : Word
  /-- `DATA_OFFSET` (R29). -/
  dataOffset : Word
  /-- `WIDTH` (R30). -/
  width : Word
  /-- `HEIGHT` (R31). -/
  height : Word
  /-- `PAL_SIZE` (R32). -/
  palSize : Word
  /-- `PAL_LEN` (R33). -/
  palLen : Word
  /-- `OUT_LEN` (R34). -/
  outLen : Word
  /-- `OUT_STRIDE` (R35). -/
  outStride : Word
  /-- `ch[0]`, red (R36). -/
  chR : ChannelRecord
  /-- `ch[1]`, green (R36). -/
  chG : ChannelRecord
  /-- `ch[2]`, blue (R36). -/
  chB : ChannelRecord
  /-- The palette memory `PAL` (R37). -/
  pal : Memory
  /-- The output memory `OUT` (R38). -/
  out : Memory
  /-- The host's input buffer `SRC` (R39). -/
  src : Memory
  /-- The parameter `PAL_CAP` (R6). -/
  palCap : Nat
  /-- The parameter `OUT_CAP` (R6). -/
  outCap : Nat
  /-- The host events not yet served, next first (R40, R56). -/
  pending : List HostEvent
  /-- The data returned to the host so far, oldest first (R70). -/
  replies : List Reply
  deriving DecidableEq, Repr

/-- Why a step stops with a fault. There is no reason: every transaction of this block completes, and a failure of an
operation is `Fail(code)`, a next state (60_exceptions.md R140). So nothing raises a fault (safe: there is none). -/
inductive Fault where
  deriving DecidableEq, Repr

/-- Why the model gives an instruction no meaning. -/
inductive Refusal where
  /-- Raised by a dispatch arm whose instruction has no meaning yet; no arm raises it (safe). -/
  | notModelled (mnemonic : String)
  deriving DecidableEq, Repr

/-- The value of a channel record after reset: `(0, 0, 255)` (R42). -/
def resetRecord : ChannelRecord := { mask := 0#32, lowBit := 0#32, range := 255#32 }

/-- The machine right after hardware reset (R42, R160), before the host has placed a byte or issued a transaction. -/
def State.reset : State where
  err := none
  done := false
  cfg := 0#32
  arg := 0#32
  srcLen := 0#32
  pos := 0#32
  fileSize := 0#32
  dataOffset := 0#32
  width := 0#32
  height := 0#32
  palSize := 0#32
  palLen := 0#32
  outLen := 0#32
  outStride := 0#32
  chR := resetRecord
  chG := resetRecord
  chB := resetRecord
  pal := []
  out := []
  src := []
  palCap := Config.palCap
  outCap := Config.outCap
  pending := []
  replies := []

end Sys2Proof.Machine
end

