-- ==== Sys2Proof/Machine/Ops.lean ====
section
/-! DEFINITION. The shared operations: byte memories, the reads of `SRC`, `PAL` and `OUT`, the failure primitive
`Fail(code)` (60_exceptions.md R140) and the return from it (R131, R145), and the cursor read (40_cursor_analyzer.md R92). -/

namespace Sys2Proof.Machine

/-- The canonical form of a memory: addresses strictly rising. An unlisted address holds no written byte. -/
abbrev Memory.wf (m : Memory) : Prop := List.Pairwise (fun c d : Host.Cell => c.1 < d.1) m

/-- The byte written at address `a`, if one was. -/
def Memory.byteAt : Memory → Nat → Option Byte
  | [], _ => none
  | (k, b) :: m, a => if k = a then some b else Memory.byteAt m a

/-- The cells of `bs` at ascending addresses from `a`. -/
def Memory.cellsFrom : Nat → List Byte → Memory
  | _, [] => []
  | a, b :: bs => (a, b) :: Memory.cellsFrom (a + 1) bs

/-- `MemWrite`: the bytes `bs` at addresses `a, a + 1, …` (00_scope.md R8). -/
def Memory.writeBytes (m : Memory) (a : Nat) (bs : List Byte) : Memory :=
  m.filter (fun c => c.1 < a) ++ Memory.cellsFrom a bs ++ m.filter (fun c => a + bs.length ≤ c.1)

/-- The byte of `SRC` at `a`; a byte the host has not placed is a free value (R39, R166 item 6; log 6). -/
def State.srcByte (s : State) (a : Nat) : Byte := (Memory.byteAt s.src a).getD (Config.srcInitial a)

/-- The byte of `PAL` at `a`; a byte LDPAL has not written is a free value (R37, R42; log 6). -/
def State.palByte (s : State) (a : Nat) : Byte := (Memory.byteAt s.pal a).getD (Config.palInitial a)

/-- The byte of `OUT` at `a`; a byte UNPACK has not written is a free value (R38, R42; log 6). -/
def State.outByte (s : State) (a : Nat) : Byte := (Memory.byteAt s.out a).getD (Config.outInitial a)

/-- `MemRead(SRC, a, n)`: the `n` bytes from address `a`, ascending (00_scope.md R8). -/
def State.srcBytes (s : State) (a n : Nat) : List Byte := (List.range n).map (fun k => s.srcByte (a + k))

/-- The host puts the byte `b` at `SRC` address `a` (R39; log 3). -/
def State.placeByte (a : Word) (b : Byte) (s : State) : State :=
  { s with src := Memory.writeBytes s.src a.toNat [b] }

/-- A block is faulted while `STATUS.ERR` is not 0 (00_scope.md R12, R140). -/
def State.faulted (s : State) : Bool := s.err.isSome

/-- `raise Fail(code)`: its five assignments, and nothing else (60_exceptions.md R140). -/
def State.fail (code : FailCode) (s : State) : State :=
  { s with
    err := some code
    done := false
    palLen := 0#32
    outLen := 0#32
    outStride := 0#32 }

/-- Every register and record takes its reset value; the contents of `PAL` and `OUT` are not cleared, `SRC` is
untouched (R42, R131). This is also the only way out of the faulted state (R145). -/
def State.initRegs (s : State) : State :=
  { s with
    err := none
    done := false
    cfg := 0#32
    arg := 0#32
    srcLen := 0#32
    pos := 0#32
    fileSize := 0#32
    dataOffset := 0#32
    width := 0#32
    height := 0#32
    palSize := 0#32
    palLen := 0#32
    outLen := 0#32
    outStride := 0#32
    chR := resetRecord
    chG := resetRecord
    chB := resetRecord }

/-- Four bytes, least significant first, as one word (20_memory.md R51, 40_cursor_analyzer.md R92). -/
def leWord (b0 b1 b2 b3 : Byte) : Word :=
  BitVec.ofNat 32 (b0.toNat + 2 ^ 8 * b1.toNat + 2 ^ 16 * b2.toNat + 2 ^ 24 * b3.toNat)

/-- `ReadU32LE()`: the word at the cursor and the state with the cursor advanced by 4, or `IO_ERROR` with nothing
changed when fewer than 4 bytes remain; the comparison does not wrap (R92). -/
def readU32LE (s : State) : Except FailCode (Word × State) :=
  if s.srcLen.toNat < s.pos.toNat + 4 then .error .ioError
  else
    let p := s.pos.toNat
    .ok (leWord (s.srcByte p) (s.srcByte (p + 1)) (s.srcByte (p + 2)) (s.srcByte (p + 3)),
      { s with pos := BitVec.ofNat 32 (p + 4) })

/-- The data of a read transaction goes back to the host (R70; log 4). -/
def State.addReply (r : Reply) (s : State) : State := { s with replies := s.replies ++ [r] }

end Sys2Proof.Machine
end

