-- ==== Sys2Proof/Machine/Operands.lean ====
section
/-! DEFINITION. The operand forms: the fields of `CFG` (10_state.md R24), the channel records selected by `CH` (R36,
30_encoding.md R73), palette presence and element size (R33, 00_scope.md R12), and the register map (R21). -/

namespace Sys2Proof.Machine

/-- `CFG.BPP`, bits [15:0] (R24). -/
def State.bpp (s : State) : BitVec 16 := s.cfg.extractLsb' 0 16

/-- `CFG.COMP`, bits [17:16] (R24). -/
def State.comp (s : State) : BitVec 2 := s.cfg.extractLsb' 16 2

/-- `CFG.ES4`, bit 24 (R24). -/
def State.es4 (s : State) : Bool := s.cfg.getLsbD 24

/-- `CFG.BMIU`, bit 25 (R24). -/
def State.bmiu (s : State) : Bool := s.cfg.getLsbD 25

/-- The bits of `CFG` that a write stores (R24, R132). -/
def cfgMask : Word := 0x0303FFFF#32

/-- The palette element size `es`: 4 if `ES4` = 1, else 3 (R12, R110). -/
def State.elementSize (s : State) : Nat := if s.es4 then 4 else 3

/-- "A palette is present" means `x[PAL_LEN] != 0` (R33). -/
def State.palPresent (s : State) : Bool := s.palLen != 0#32

/-- `ceil8(w)`: the number of bytes that hold `w` bits (00_scope.md R8). -/
def ceil8 (w : Nat) : Nat := (w + 7) / 8

/-- The record `ch[c]`; there is none for `c` = 3, and its reset value stands for it (R36; log 8). -/
def State.channel (c : BitVec 2) (s : State) : ChannelRecord :=
  if c = 0#2 then s.chR else if c = 1#2 then s.chG else if c = 2#2 then s.chB else resetRecord

/-- `ch[c] <- r`, the whole record at once; nothing for `c` = 3 (R36; log 8). -/
def State.setChannel (c : BitVec 2) (r : ChannelRecord) (s : State) : State :=
  if c = 0#2 then { s with chR := r }
  else if c = 1#2 then { s with chG := r }
  else if c = 2#2 then { s with chB := r }
  else s

/-- The byte offset of a register in `REG` (R21). -/
def Reg.offset : Reg → Nat
  | .cmd => 0x00
  | .status => 0x04
  | .cfg => 0x08
  | .arg => 0x0C
  | .srcLen => 0x10
  | .pos => 0x14
  | .fileSize => 0x18
  | .dataOffset => 0x1C
  | .width => 0x20
  | .height => 0x24
  | .palSize => 0x28
  | .palLen => 0x2C
  | .outLen => 0x30
  | .outStride => 0x34
  | .maskR => 0x40
  | .lowbitR => 0x44
  | .rangeR => 0x48
  | .maskG => 0x50
  | .lowbitG => 0x54
  | .rangeG => 0x58
  | .maskB => 0x60
  | .lowbitB => 0x64
  | .rangeB => 0x68

/-- The register at a byte offset; none at a reserved or misaligned offset or beyond the space (R21, R44, R52). -/
def regAt : Nat → Option Reg
  | 0x00 => some .cmd
  | 0x04 => some .status
  | 0x08 => some .cfg
  | 0x0C => some .arg
  | 0x10 => some .srcLen
  | 0x14 => some .pos
  | 0x18 => some .fileSize
  | 0x1C => some .dataOffset
  | 0x20 => some .width
  | 0x24 => some .height
  | 0x28 => some .palSize
  | 0x2C => some .palLen
  | 0x30 => some .outLen
  | 0x34 => some .outStride
  | 0x40 => some .maskR
  | 0x44 => some .lowbitR
  | 0x48 => some .rangeR
  | 0x50 => some .maskG
  | 0x54 => some .lowbitG
  | 0x58 => some .rangeG
  | 0x60 => some .maskB
  | 0x64 => some .lowbitB
  | 0x68 => some .rangeB
  | _ => none

end Sys2Proof.Machine
end

