-- ==== Sys2Proof/Machine/Analyzer.lean ====
section
/-! DEFINITION. The bitfield analyzer: `analyze`, `ANALYZE c` and `LDMASK c` (40_cursor_analyzer.md R90 to R94). -/

namespace Sys2Proof.Machine

/-- The least `i` in 0..31 with `v[i] = 1`, scanning upwards; 0 when there is none (R90). -/
def lowestSetBit (v : Word) : Nat := ((List.range 32).find? (fun i => v.getLsbD i)).getD 0

/-- The greatest `i` in 0..31 with `v[i] = 1`, scanning downwards; 0 when there is none (R90). -/
def highestSetBit (v : Word) : Nat := ((List.range 32).reverse.find? (fun i => v.getLsbD i)).getD 0

/-- `analyze(v)` = `(lowBit, range)`; a zero mask gives `(0, 255)` (R90). -/
def analyze (v : Word) : Word × Word :=
  if v = 0#32 then (0#32, 255#32)
  else (BitVec.ofNat 32 (lowestSetBit v), BitVec.ofNat 32 (2 ^ (highestSetBit v - lowestSetBit v + 1) - 1))

/-- The record that ANALYZE and LDMASK write for the mask `v` (R91, R93). -/
def recordOf (v : Word) : ChannelRecord := { mask := v, lowBit := (analyze v).1, range := (analyze v).2 }

/-- `ANALYZE c`: analyze the mask in `ARG` into `ch[c]` (R91). `CH` = 3 is illegal (R74; log 8). -/
def execAnalyze (ch : BitVec 2) (s : State) : Host.Outcome State Fault Refusal :=
  if ch = 3#2 then .next (s.fail .badCmd)
  else .next (s.setChannel ch (recordOf s.arg))

/-- `LDMASK c`: read a mask at the cursor and analyze it into `ch[c]` (R93). `CH` = 3 is illegal (R74; log 8). -/
def execLdmask (ch : BitVec 2) (s : State) : Host.Outcome State Fault Refusal :=
  if ch = 3#2 then .next (s.fail .badCmd)
  else match readU32LE s with
    | .error code => .next (s.fail code)
    | .ok (v, t) => .next (t.setChannel ch (recordOf v))

end Sys2Proof.Machine
end

