-- ==== Sys2Proof/Machine/Control.lean ====
section
/-! DEFINITION. The control commands `NOP` and `INIT` (43_control_access.md R130, R131). -/

namespace Sys2Proof.Machine

/-- `NOP`: nothing (R130). -/
def execNop (s : State) : Host.Outcome State Fault Refusal := .next s

/-- `INIT`: a new decode attempt (R131). -/
def execInit (s : State) : Host.Outcome State Fault Refusal := .next s.initRegs

end Sys2Proof.Machine
end

