-- ==== Sys2Proof/Machine/Palette.lean ====
section
/-! DEFINITION. The palette fill `LDPAL` (41_palette_load.md R100 to R102). -/

namespace Sys2Proof.Machine

/-- The condition under which LDPAL copies: `BPP <= 8`, `PAL_SIZE > 0` and `BMIU = 0` (R100). -/
def State.copiesPalette (s : State) : Bool := s.bpp.toNat ≤ 8 && 0 < s.palSize.toNat && !s.bmiu

/-- The first failure of a copying LDPAL, capacity before length, on unbounded integers (R100, R144). -/
def paletteFailure (s : State) : Option FailCode :=
  if s.palCap < s.palSize.toNat then some .outOfMemory
  else if s.srcLen.toNat < s.pos.toNat + s.palSize.toNat then some .fileInvalid
  else none

/-- The copy: `PAL[0 .. n-1] <- SRC[p .. p+n-1]` verbatim, `PAL_LEN <- n`, `POS <- p + n` (R100, R101). -/
def copyPalette (s : State) : State :=
  { s with
    pal := Memory.writeBytes s.pal 0 (s.srcBytes s.pos.toNat s.palSize.toNat)
    palLen := s.palSize
    pos := BitVec.ofNat 32 (s.pos.toNat + s.palSize.toNat) }

/-- `LDPAL` (R100). -/
def execLdpal (s : State) : Host.Outcome State Fault Refusal :=
  if s.copiesPalette then
    match paletteFailure s with
    | some code => .next (s.fail code)
    | none => .next (copyPalette s)
  else .next { s with palLen := 0#32 }

end Sys2Proof.Machine
end

