-- ==== Sys2Proof/Machine/Unpack.lean ====
section
/-! DEFINITION. The 1-bit-per-pixel unpacker `UNPACK` (42_pixel_unpack.md R110 to R119), on unbounded integers (R9). -/

namespace Sys2Proof.Machine

/-- `S`: the source bytes the header declares per row, `(FS - DO) div H` (R110, R111). -/
def State.declaredRow (s : State) : Nat := (s.fileSize.toNat - s.dataOffset.toNat) / s.height.toNat

/-- `P`: `scanLinePadding`, in bits, `8·S - W` (R111). -/
def State.scanPadding (s : State) : Nat := 8 * s.declaredRow - s.width.toNat

/-- The skip rule, in the document's two branches (R112). -/
def skipBytes (p : Nat) : Nat := if p % 2 = 0 then p / 8 else (p - 1) / 8

/-- `adv`: the row cursor's advance per row; a partly used byte is stepped over before the skip (R113 item 4, R6). -/
def State.rowAdvance (s : State) : Nat := ceil8 s.width.toNat + skipBytes s.scanPadding

/-- The row cursor of row `i`: `DO` advanced `i` times (R113). -/
def State.rowCursor (s : State) (i : Nat) : Nat := s.dataOffset.toNat + i * s.rowAdvance

/-- The first of the seven checks that fails, in their order (R110, R144). -/
def unpackFailure (s : State) : Option FailCode :=
  if s.bpp ≠ 1#16 ∨ s.comp ≠ 0#2 then some .fileNotSupported
  else if s.height = 0#32 then some .fileInvalid
  else if s.fileSize.toNat < s.dataOffset.toNat then some .fileInvalid
  else if 8 * s.declaredRow < s.width.toNat then some .fileInvalid
  else if s.palPresent ∧ s.palLen.toNat < 2 * s.elementSize then some .fileInvalid
  else if s.outCap < 4 * s.width.toNat * s.height.toNat then some .outOfMemory
  else if 0 < s.width.toNat ∧ s.srcLen.toNat < s.rowCursor (s.height.toNat - 1) + ceil8 s.width.toNat then
    some .ioError
  else none

/-- The bit of pixel `j` in the row at cursor `cur`, most significant bit first (R113 item 3). -/
def State.pixelBit (s : State) (cur j : Nat) : Bool := (s.srcByte (cur + j / 8)).getLsbD (7 - j % 8)

/-- One pixel through the palette: entry `bit`, stored B, G, R, written R, G, B, alpha 255 (R114). -/
def State.palettePixel (s : State) (bit : Bool) : List Byte :=
  let e := if bit then s.elementSize else 0
  [s.palByte (e + 2), s.palByte (e + 1), s.palByte e, 255#8]

/-- One monochrome pixel: white for 1, black for 0, alpha 255 (R115). -/
def monoPixel (bit : Bool) : List Byte :=
  let v := if bit then 255#8 else 0#8
  [v, v, v, 255#8]

/-- One pixel, by the path chosen from `PAL_LEN` (R110). -/
def State.pixelBytes (s : State) (bit : Bool) : List Byte :=
  if s.palPresent then s.palettePixel bit else monoPixel bit

/-- The output bytes of row `i`, pixels left to right (R113, R116). -/
def State.rowBytes (s : State) (i : Nat) : List Byte :=
  (List.range s.width.toNat).flatMap (fun j => s.pixelBytes (s.pixelBit (s.rowCursor i) j))

/-- The output bytes of the image, rows in storage order (R113, R116). -/
def State.imageBytes (s : State) : List Byte := (List.range s.height.toNat).flatMap s.rowBytes

/-- The decode and its completion (R110, R117). The writes of one command are one indivisible step (R53), so the
image is written to `OUT` at once. -/
def unpackImage (s : State) : State :=
  { s with
    out := Memory.writeBytes s.out 0 s.imageBytes
    outLen := BitVec.ofNat 32 (4 * s.width.toNat * s.height.toNat)
    outStride := BitVec.ofNat 32 (4 * s.width.toNat)
    pos := BitVec.ofNat 32 (s.rowCursor s.height.toNat)
    palLen := 0#32
    done := true }

/-- `UNPACK` (R110). -/
def execUnpack (s : State) : Host.Outcome State Fault Refusal :=
  match unpackFailure s with
  | some code => .next (s.fail code)
  | none => .next (unpackImage s)

end Sys2Proof.Machine
end

