-- ==== Sys2Proof/Machine/Dispatch.lean ====
section
/-! DEFINITION. One arm per command: its meaning, for a command that is carried out (43_control_access.md R135). -/

namespace Sys2Proof.Machine

/-- The meaning of a command that is carried out. The acceptance rule R135 stands in `acceptCommand` (log 9). -/
def exec (i : Instr) (s : State) : Host.Outcome State Fault Refusal :=
  match i with
  | .nop => Sys2Proof.Machine.execNop s
  | .init => Sys2Proof.Machine.execInit s
  | .analyze ch => Sys2Proof.Machine.execAnalyze ch s
  | .ldmask ch => Sys2Proof.Machine.execLdmask ch s
  | .ldpal => Sys2Proof.Machine.execLdpal s
  | .unpack => Sys2Proof.Machine.execUnpack s

end Sys2Proof.Machine
end

