-- ==== Sys2Proof/Machine/Flags.lean ====
section
/-! DEFINITION. The block's only flags: `STATUS`, its error numbers and its word (10_state.md R23, 60_exceptions.md R141). -/

namespace Sys2Proof.Machine

/-- The number of an error code (R141). -/
def FailCode.number : FailCode → Nat
  | .ioError => 1
  | .fileInvalid => 2
  | .fileNotSupported => 3
  | .outOfMemory => 4
  | .badCmd => 5

/-- The value of `STATUS.ERR`: 0 when nothing has failed (R23, R141). -/
def State.errNumber (s : State) : Nat :=
  match s.err with
  | none => 0
  | some c => c.number

/-- The word a read of `STATUS` returns: `ERR + 8·DONE + 16·PAL`, where `PAL` mirrors `PAL_LEN != 0` (R23, R133). -/
def State.statusWord (s : State) : Word :=
  BitVec.ofNat 32 (s.errNumber + 8 * (if s.done then 1 else 0) + 16 * (if s.palPresent then 1 else 0))

end Sys2Proof.Machine
end

