-- ==== Sys2Proof/Machine/Access.lean ====
section
/-! DEFINITION. Host access: the acceptance of commands, `WR`, `RD`, `OUTRD`, hardware reset, and serving the next host
event (43_control_access.md R132 to R135, 70_reset_and_hazards.md R160, 20_memory.md R56). -/

namespace Sys2Proof.Machine

/-- A host write of `w` to `CMD`: while faulted only `INIT` is accepted and no other word is decoded; otherwise an
illegal word raises `BAD_CMD` and a legal one is carried out (R135). -/
def acceptCommand (w : Word) (s : State) : Host.Outcome State Fault Refusal :=
  if s.faulted then
    if w = 0x00000001#32 then exec .init s else .next s
  else match decode w with
    | .error _ => .next (s.fail .badCmd)
    | .ok i => exec i s

/-- A host write to a register: `CMD` carries out a command, a read-write register stores the value (`CFG` its legal
bits), a read-only register ignores it (R132). -/
def writeReg (r : Reg) (data : Word) (s : State) : Host.Outcome State Fault Refusal :=
  match r with
  | .cmd => acceptCommand data s
  | .cfg => .next { s with cfg := data &&& cfgMask }
  | .arg => .next { s with arg := data }
  | .srcLen => .next { s with srcLen := data }
  | .pos => .next { s with pos := data }
  | .fileSize => .next { s with fileSize := data }
  | .dataOffset => .next { s with dataOffset := data }
  | .width => .next { s with width := data }
  | .height => .next { s with height := data }
  | .palSize => .next { s with palSize := data }
  | .status | .palLen | .outLen | .outStride => .next s
  | .maskR | .lowbitR | .rangeR | .maskG | .lowbitG | .rangeG | .maskB | .lowbitB | .rangeB => .next s

/-- The value a host read of a register returns; `CMD` reads 0 (R22, R133). -/
def readReg (r : Reg) (s : State) : Word :=
  match r with
  | .cmd => 0#32
  | .status => s.statusWord
  | .cfg => s.cfg
  | .arg => s.arg
  | .srcLen => s.srcLen
  | .pos => s.pos
  | .fileSize => s.fileSize
  | .dataOffset => s.dataOffset
  | .width => s.width
  | .height => s.height
  | .palSize => s.palSize
  | .palLen => s.palLen
  | .outLen => s.outLen
  | .outStride => s.outStride
  | .maskR => s.chR.mask
  | .lowbitR => s.chR.lowBit
  | .rangeR => s.chR.range
  | .maskG => s.chG.mask
  | .lowbitG => s.chG.lowBit
  | .rangeG => s.chG.range
  | .maskB => s.chB.mask
  | .lowbitB => s.chB.lowBit
  | .rangeB => s.chB.range

/-- `WR off, data`: nothing at a reserved or misaligned offset (R44, R132). -/
def hostWrite (off : Nat) (data : Word) (s : State) : Host.Outcome State Fault Refusal :=
  match regAt off with
  | none => .next s
  | some r => writeReg r data s

/-- What `RD off` returns: 0 at a reserved or misaligned offset (R44, R133). -/
def hostRead (off : Nat) (s : State) : Word :=
  match regAt off with
  | none => 0#32
  | some r => readReg r s

/-- What `OUTRD addr` returns: the byte below `OUT_LEN`, 0 at or above it (R134). -/
def outRead (addr : Word) (s : State) : Byte :=
  if addr.toNat < s.outLen.toNat then s.outByte addr.toNat else 0#8

/-- One host transaction (R70). -/
def transact (t : Transaction) (s : State) : Host.Outcome State Fault Refusal :=
  match t with
  | .wr off data => hostWrite off data s
  | .rd off => .next (s.addReply (.word (hostRead off s)))
  | .outrd addr => .next (s.addReply (.byte (outRead addr s)))

/-- One event of the outside world. Hardware reset is identical in effect to `INIT` (R160; log 7). -/
def performEvent (e : HostEvent) (s : State) : Host.Outcome State Fault Refusal :=
  match e with
  | .issue t => transact t s
  | .hardReset => .next s.initRegs
  | .placeSrc a b => .next (s.placeByte a b)

/-- Serve the next host event; with none the block is idle and nothing changes (R11, R56; logs 1 and 2). -/
def serveNext (s : State) : Host.Outcome State Fault Refusal :=
  match s.pending with
  | [] => .next s
  | e :: rest => performEvent e { s with pending := rest }

/-- The command word `w` issued as the very next host event (R22, R70; log 10). -/
def issueCommand (w : Word) (s : State) : State :=
  { s with pending := .issue (.wr (Reg.offset .cmd) w) :: s.pending }

end Sys2Proof.Machine
end

