-- ==== Sys2Proof/Machine/Step.lean ====
section
/-! DEFINITION. One step: the block serves the next host event (00_scope.md R5, R11; 20_memory.md R56). -/

namespace Sys2Proof.Machine

/-- One step of the machine. -/
def step (s : State) : Host.Outcome State Fault Refusal := serveNext s

/-- `s` with the command word whose bits are `w` issued as its very next transaction, a `WR` to `CMD` (R22; log 10). -/
def State.withFetchWord (s : State) (nbits w : Nat) : State := issueCommand (tableWord nbits w) s

end Sys2Proof.Machine
end

