-- ==== Sys2Proof/Machine/Pseudo.lean ====
section
/-! DEFINITION. The notation of host programs: a register's write and read, a command, and the pseudo-instructions, each
the list of host events it stands for (30_encoding.md R77, R78). -/

namespace Sys2Proof.Machine

/-- `WR <REGNAME>, v` (R77). -/
def asmWr (r : Reg) (v : Word) : HostEvent := .issue (.wr r.offset v)

/-- `RD <REGNAME>` (R77). -/
def asmRd (r : Reg) : HostEvent := .issue (.rd r.offset)

/-- `CMD <MNEMONIC>` (R77). -/
def asmCmd (i : Instr) : HostEvent := asmWr .cmd (encode i)

/-- `ANALYZEI c, imm32` (R78). -/
def analyzeImm (c : BitVec 2) (imm : Word) : List HostEvent := [asmWr .arg imm, asmCmd (.analyze c)]

/-- The word of `SETCFG bpp, comp, es, bmiu` with `es4` for `es = 4` (R78). -/
def cfgWord (bpp : BitVec 16) (comp : BitVec 2) (es4 bmiu : Bool) : Word :=
  BitVec.ofNat 32 (bpp.toNat + comp.toNat * 2 ^ 16 + (if es4 then 1 else 0) * 2 ^ 24 + (if bmiu then 1 else 0) * 2 ^ 25)

/-- `SETCFG bpp, comp, es, bmiu` (R78). -/
def setCfg (bpp : BitVec 16) (comp : BitVec 2) (es4 bmiu : Bool) : List HostEvent :=
  [asmWr .cfg (cfgWord bpp comp es4 bmiu)]

/-- `LDMASKS`: the three masks in the order R, G, B (R78). -/
def ldMasks : List HostEvent := [asmCmd (.ldmask 0#2), asmCmd (.ldmask 1#2), asmCmd (.ldmask 2#2)]

/-- `OUTRD4 addr`: one pixel (R78). The addresses are 32-bit words (R70): where `addr+1`, `addr+2` or `addr+3` reaches
2^32, which the spec does not treat, it wraps to address 0 (DESIGN CHOICE, log 13). -/
def outRd4 (addr : Word) : List HostEvent :=
  [.issue (.outrd addr), .issue (.outrd (addr + 1#32)), .issue (.outrd (addr + 2#32)), .issue (.outrd (addr + 3#32))]

end Sys2Proof.Machine
end

