-- ==== Sys2Proof/Safety.lean ====
section
/-! DEFINITION. The terms claims are made in: the invariants of the machine, when an UNPACK is accepted, and which states
the host cannot tell apart. -/

namespace Sys2Proof.Machine

/-- `n` steps, stopping at the first fault or refusal: `Host.Core.run` of this machine. -/
def run : Nat → State → Host.Outcome State Fault Refusal
  | 0, s => .next s
  | n + 1, s =>
    match step s with
    | .next t => run n t
    | .fault r => .fault r
    | .refused r => .refused r

/-- The parameters lie in their ranges (00_scope.md R6). -/
abbrev ParamsLegal (s : State) : Prop := 8 ≤ s.palCap ∧ s.palCap < 2 ^ 32 ∧ s.outCap < 2 ^ 32

/-- The three memories are in canonical form. -/
abbrev MemoriesCanonical (s : State) : Prop := Memory.wf s.pal ∧ Memory.wf s.out ∧ Memory.wf s.src

/-- Nothing is written outside a memory's address space (20_memory.md R50, R54). -/
abbrev WithinCapacity (s : State) : Prop :=
  (∀ c ∈ s.pal, c.1 < s.palCap) ∧ (∀ c ∈ s.out, c.1 < s.outCap) ∧ (∀ c ∈ s.src, c.1 < 2 ^ 32)

/-- `PAL_LEN <= PAL_CAP` and `OUT_LEN <= OUT_CAP` (10_state.md R33, R34). -/
abbrev LengthsFit (s : State) : Prop := s.palLen.toNat ≤ s.palCap ∧ s.outLen.toNat ≤ s.outCap

/-- Every channel record is `(mask, analyze mask)` (R36, R94). -/
abbrev ChannelsAnalyzed (s : State) : Prop :=
  s.chR = recordOf s.chR.mask ∧ s.chG = recordOf s.chG.mask ∧ s.chB = recordOf s.chB.mask

/-- The reserved bits of `CFG` are 0 (R24). -/
abbrev CfgReservedZero (s : State) : Prop := s.cfg &&& cfgMask = s.cfg

/-- In a faulted state the palette and the image are released (60_exceptions.md R149). -/
abbrev LeakFree (s : State) : Prop := s.err ≠ none → s.palLen = 0#32 ∧ s.outLen = 0#32

/-- `DONE = 1` and `ERR != 0` never hold together (70_reset_and_hazards.md R168). -/
abbrev DoneExcludesErr (s : State) : Prop := s.done = true → s.err = none

/-- Without a completed UNPACK there is no image (R34, R35). -/
abbrev NoImageUnlessDone (s : State) : Prop := s.done = false → s.outLen = 0#32 ∧ s.outStride = 0#32

/-- Every byte of the palette was written by LDPAL (R37). -/
abbrev PaletteWritten (s : State) : Prop := ∀ a, a < s.palLen.toNat → (Memory.byteAt s.pal a).isSome = true

/-- Every byte of the image was written by UNPACK (R134). -/
abbrev ImageWritten (s : State) : Prop := ∀ a, a < s.outLen.toNat → (Memory.byteAt s.out a).isSome = true

/-- Every pixel of the image has alpha 255 (R38, R116). -/
abbrev AlphaOpaque (s : State) : Prop := ∀ a, a < s.outLen.toNat → a % 4 = 3 → s.outByte a = 255#8

/-- What holds of the machine at all times. -/
structure StateInv (s : State) : Prop where
  params : ParamsLegal s
  memories : MemoriesCanonical s
  capacity : WithinCapacity s
  lengths : LengthsFit s
  channels : ChannelsAnalyzed s
  cfgReserved : CfgReservedZero s
  leakFree : LeakFree s
  doneOrErr : DoneExcludesErr s
  noImage : NoImageUnlessDone s
  paletteWritten : PaletteWritten s
  imageWritten : ImageWritten s
  alpha : AlphaOpaque s

/-- `adv`, written out from the registers: `ceil8(W)` and the skip of the padding `8·S - W` in its two branches
(R110 to R113). -/
def rowStep (s : State) : Nat :=
  let p := 8 * ((s.fileSize.toNat - s.dataOffset.toNat) / s.height.toNat) - s.width.toNat
  (s.width.toNat + 7) / 8 + (if p % 2 = 0 then p / 8 else (p - 1) / 8)

/-- Checks 1 to 4 of UNPACK pass (R110). -/
abbrev GeometryAccepts (s : State) : Prop :=
  s.bpp = 1#16 ∧ s.comp = 0#2 ∧ s.height ≠ 0#32 ∧ s.dataOffset.toNat ≤ s.fileSize.toNat ∧
  s.width.toNat ≤ 8 * ((s.fileSize.toNat - s.dataOffset.toNat) / s.height.toNat)

/-- The conditions under which UNPACK decodes: none of the seven checks of R110 fails. Said of the registers alone, not
through the model's own check. -/
abbrev UnpackAccepts (s : State) : Prop :=
  GeometryAccepts s ∧
  (s.palLen = 0#32 ∨ 2 * s.elementSize ≤ s.palLen.toNat) ∧
  4 * s.width.toNat * s.height.toNat ≤ s.outCap ∧
  (s.width.toNat = 0 ∨
    s.dataOffset.toNat + (s.height.toNat - 1) * rowStep s + (s.width.toNat + 7) / 8 ≤ s.srcLen.toNat)

/-- The bit of the pixel in row `i`, column `j`: bit `7 - j mod 8` of the byte `j div 8` of the row, whose cursor is `DO`
advanced `i` times (R113). -/
def storedBit (s : State) (i j : Nat) : Bool :=
  (s.srcByte (s.dataOffset.toNat + i * rowStep s + j / 8)).getLsbD (7 - j % 8)

/-- Two states that differ at most in bytes of `PAL` at or above `PAL_LEN` and of `OUT` at or above `OUT_LEN`
(R37, R38, R41). -/
abbrev SameButUnobservable (s t : State) : Prop :=
  t = { s with pal := t.pal, out := t.out } ∧
  (∀ a, a < s.palLen.toNat → s.palByte a = t.palByte a) ∧ (∀ a, a < s.outLen.toNat → s.outByte a = t.outByte a)

/-- Two states that differ at most in bytes of `SRC` at or above `SRC_LEN` (R54). -/
abbrev SameBelowSrcLen (s t : State) : Prop :=
  t = { s with src := t.src } ∧ (∀ a, a < s.srcLen.toNat → s.srcByte a = t.srcByte a)

/-- An event that can take the block out of the faulted state: hardware reset or the command `INIT` (R145). -/
def clearsFault : HostEvent → Bool
  | .hardReset => true
  | .issue (.wr off data) => off == 0 && data == 0x00000001#32
  | .issue (.rd _) => false
  | .issue (.outrd _) => false
  | .placeSrc _ _ => false

end Sys2Proof.Machine
end

