-- ==== Sys2Proof/Certificates/Slice0/Obligations.lean ====
section
/-! DEFINITION. What is claimed of the model, one proposition each. Nothing is proved here. -/

open Sys2Proof Sys2Proof.Machine

/-! ### Reset and INIT -/

/-- Every register and record after hardware reset (R42), that neither memory can be seen then, and that INIT and a later
hardware reset give the same values and do not touch `SRC` (R42, R131, R160). That the contents of `PAL` and `OUT` are kept
is R131 for INIT and the model's choice for hardware reset, where R42 calls them unspecified (log 6); that the events still
pending stay pending through a hardware reset is the model's choice (log 7). -/
def Obligations.ResetAndInitGiveResetValues : Prop :=
  (State.reset.err = none ∧ State.reset.done = false ∧ State.reset.cfg = 0#32 ∧ State.reset.arg = 0#32 ∧
    State.reset.srcLen = 0#32 ∧ State.reset.pos = 0#32 ∧ State.reset.fileSize = 0#32 ∧
    State.reset.dataOffset = 0#32 ∧ State.reset.width = 0#32 ∧ State.reset.height = 0#32 ∧
    State.reset.palSize = 0#32 ∧ State.reset.palLen = 0#32 ∧ State.reset.outLen = 0#32 ∧
    State.reset.outStride = 0#32 ∧ State.reset.statusWord = 0#32 ∧
    State.reset.chR = ⟨0#32, 0#32, 255#32⟩ ∧ State.reset.chG = ⟨0#32, 0#32, 255#32⟩ ∧
    State.reset.chB = ⟨0#32, 0#32, 255#32⟩ ∧ State.reset.palPresent = false ∧ (∀ a, outRead a State.reset = 0#8)) ∧
  ∀ s : State,
    exec .init s = .next
      { State.reset with
        pal := s.pal, out := s.out, src := s.src, palCap := s.palCap, outCap := s.outCap,
        pending := s.pending, replies := s.replies } ∧
    performEvent .hardReset s = exec .init s

/-- R131: the command INIT, accepted faulted or not, gives every register its reset value, clears neither `PAL` nor `OUT`
but makes both unobservable, and leaves `SRC` untouched; no other command is accepted while the block is faulted. -/
def Obligations.InitCommandBeginsNewAttempt : Prop :=
  (∀ (s : State) (rest : List HostEvent), s.pending = .issue (.wr 0x00 0x00000001#32) :: rest →
    ∃ t, step s = .next t ∧ exec .init { s with pending := rest } = .next t ∧
      t = { State.reset with
            pal := s.pal, out := s.out, src := s.src, palCap := s.palCap, outCap := s.outCap,
            pending := rest, replies := s.replies } ∧
      t.palPresent = false ∧ (∀ a, outRead a t = 0#8)) ∧
  ∀ (s : State) (rest : List HostEvent) (w : Word), s.pending = .issue (.wr 0x00 w) :: rest → s.err ≠ none →
    w ≠ 0x00000001#32 → step s = .next { s with pending := rest }

/-- R160: hardware reset is identical in effect to INIT, leaves the block not faulted and does not touch `SRC`. That the
events still pending stay pending is the model's choice (log 7). -/
def Obligations.HardResetEqualsInit : Prop :=
  ∀ (s : State) (rest : List HostEvent), s.pending = .hardReset :: rest →
    ∃ t, step s = .next t ∧ exec .init { s with pending := rest } = .next t ∧
      t = { State.reset with
            pal := s.pal, out := s.out, src := s.src, palCap := s.palCap, outCap := s.outCap,
            pending := rest, replies := s.replies } ∧
      t.err = none ∧ t.palPresent = false ∧ (∀ a, outRead a t = 0#8)

/-! ### Invariants -/

/-- The invariant holds after reset, whatever the parameters are. -/
def Obligations.InvariantHoldsAtReset : Prop := StateInv State.reset

/-- Every step keeps the invariant. -/
def Obligations.StepKeepsInvariant : Prop := ∀ s t : State, StateInv s → step s = .next t → StateInv t

/-- Every host program runs without a stop from reset, and the invariant holds after any number of its steps. -/
def Obligations.EveryHostProgramRunsSafely : Prop :=
  ∀ (program : List HostEvent) (n : Nat),
    ∃ t, Sys2Proof.Machine.run n { State.reset with pending := program } = .next t ∧ StateInv t

/-- Every step keeps the canonical form of the three memories, with no other premise. -/
def Obligations.StepKeepsMemoriesCanonical : Prop :=
  ∀ s t : State, MemoriesCanonical s → step s = .next t → MemoriesCanonical t

/-- R149: in every faulted state `PAL_LEN` = 0 and `OUT_LEN` = 0: true after reset and kept by every step. -/
def Obligations.FaultedStatesLeakNothing : Prop :=
  (State.reset.err ≠ none → State.reset.palLen = 0#32 ∧ State.reset.outLen = 0#32) ∧
  ∀ s t : State, (s.err ≠ none → s.palLen = 0#32 ∧ s.outLen = 0#32) → step s = .next t →
    (t.err ≠ none → t.palLen = 0#32 ∧ t.outLen = 0#32)

/-- R94: ANALYZE and LDMASK keep the channel-mask invariant: each writes `ch[c]` as `(v, analyze(v))` or not at all. -/
def Obligations.AnalyzerCommandsKeepChannelInvariant : Prop :=
  ∀ (s t : State) (c : BitVec 2), (exec (.analyze c) s = .next t ∨ exec (.ldmask c) s = .next t) →
    (∀ d : BitVec 2, d ≠ c → State.channel d t = State.channel d s) ∧
    (State.channel c t = State.channel c s ∨
      ∃ v, State.channel c t = ⟨v, (analyze v).1, (analyze v).2⟩) ∧
    (ChannelsAnalyzed s → ChannelsAnalyzed t)

/-- `DONE` and `ERR` never hold together: kept by every step (R168). -/
def Obligations.DoneAndErrNeverTogether : Prop :=
  ∀ s t : State, ¬ (s.done = true ∧ s.err ≠ none) → step s = .next t → ¬ (t.done = true ∧ t.err ≠ none)

/-! ### Encoding -/

/-- Decoding answers a command exactly when it is well formed and its encoding is the word (R71 to R75). -/
def Obligations.DecodeAndEncodeAgree : Prop :=
  ∀ (w : Word) (i : Instr), decode w = .ok i ↔ i.wellFormed = true ∧ encode i = w

/-- R72: a word selects a row exactly when `(w & mask) = match` and its `CH` constraint holds. -/
def Obligations.WordsSelectRowsByMaskAndMatch : Prop :=
  ∀ w : Word,
    (decode w = .ok .nop ↔ w &&& 0xFFFFFFFF#32 = 0x00000000#32) ∧
    (decode w = .ok .init ↔ w &&& 0xFFFFFFFF#32 = 0x00000001#32) ∧
    (∀ c : BitVec 2, decode w = .ok (.analyze c) ↔
      w &&& 0xFFFFFCFF#32 = 0x00000002#32 ∧ w.extractLsb' 8 2 = c ∧ (c = 0#2 ∨ c = 1#2 ∨ c = 2#2)) ∧
    (∀ c : BitVec 2, decode w = .ok (.ldmask c) ↔
      w &&& 0xFFFFFCFF#32 = 0x00000003#32 ∧ w.extractLsb' 8 2 = c ∧ (c = 0#2 ∨ c = 1#2 ∨ c = 2#2)) ∧
    (decode w = .ok .ldpal ↔ w &&& 0xFFFFFFFF#32 = 0x00000004#32) ∧
    (decode w = .ok .unpack ↔ w &&& 0xFFFFFFFF#32 = 0x00000005#32)

/-- The legal command words are exactly the ten that follow R72's table (the spec's own inference). -/
def Obligations.LegalWordsAreTheTenListed : Prop :=
  ∀ w : Word, (∃ i, decode w = .ok i) ↔ w ∈
    [0x00000000#32, 0x00000001#32, 0x00000002#32, 0x00000102#32, 0x00000202#32, 0x00000003#32, 0x00000103#32,
     0x00000203#32, 0x00000004#32, 0x00000005#32]

/-- R74: which words are illegal, that an illegal word raises `BAD_CMD` and does nothing else in a block that is not
faulted, and that a faulted block does not decode it at all. -/
def Obligations.IllegalWordsRaiseBadCmd : Prop :=
  ∀ w : Word,
    ((∃ e, decode w = .error e) ↔
      (w.extractLsb' 10 22 ≠ 0#22 ∨ 0x05 < (w.extractLsb' 0 8).toNat ∨
       ((w.extractLsb' 0 8 = 0x02#8 ∨ w.extractLsb' 0 8 = 0x03#8) ∧ w.extractLsb' 8 2 = 3#2) ∨
       ((w.extractLsb' 0 8 = 0x00#8 ∨ w.extractLsb' 0 8 = 0x01#8 ∨ w.extractLsb' 0 8 = 0x04#8 ∨
          w.extractLsb' 0 8 = 0x05#8) ∧ w.extractLsb' 8 2 ≠ 0#2))) ∧
    ∀ (s : State) (rest : List HostEvent), s.pending = .issue (.wr 0x00 w) :: rest →
      (∃ e, decode w = .error e) →
      (s.err = none → step s = .next
        { s with
          pending := rest, err := some .badCmd, done := false, palLen := 0#32, outLen := 0#32, outStride := 0#32 }) ∧
      (s.err ≠ none → step s = .next { s with pending := rest })

/-- Words written out from the encoding tables decode to their commands (R72; a sanity statement). -/
def Obligations.WrittenOutWordsDecode : Prop :=
  decode 0b00000000000000000000000000000000#32 = .ok .nop ∧
  decode 0b00000000000000000000000000000001#32 = .ok .init ∧
  decode 0b00000000000000000000000100000010#32 = .ok (.analyze 1#2) ∧
  decode 0b00000000000000000000001000000011#32 = .ok (.ldmask 2#2) ∧
  decode 0b00000000000000000000000000000100#32 = .ok .ldpal ∧
  decode 0b00000000000000000000000000000101#32 = .ok .unpack

/-! ### The step, and which commands are accepted -/

/-- A step runs the decoded command: when the next event writes a legal word to `CMD` and the block is not faulted, the
step is `exec` of that command on the state without that event. -/
def Obligations.StepRunsDecodedCommand : Prop :=
  (∀ (s : State) (rest : List HostEvent) (w : Word) (i : Instr),
    s.pending = .issue (.wr 0x00 w) :: rest → s.err = none → decode w = .ok i →
    step s = exec i { s with pending := rest }) ∧
  (∀ (s : State) (w : Nat) (i : Instr), s.err = none → decodeTableWord 32 w = some i →
    step (s.withFetchWord 32 w) = exec i s)

/-- R135: the acceptance of commands. -/
def Obligations.CommandAcceptance : Prop :=
  ∀ (s : State) (rest : List HostEvent) (w : Word), s.pending = .issue (.wr 0x00 w) :: rest →
    (s.err ≠ none → w = 0x00000001#32 → step s = exec .init { s with pending := rest }) ∧
    (s.err ≠ none → w ≠ 0x00000001#32 → step s = .next { s with pending := rest }) ∧
    (s.err = none → (∃ e, decode w = .error e) → step s = .next
      { s with
        pending := rest, err := some .badCmd, done := false, palLen := 0#32, outLen := 0#32, outStride := 0#32 }) ∧
    (s.err = none → ∀ i, decode w = .ok i → step s = exec i { s with pending := rest })

/-- Every step answers a next state, and so does every command in every state: the block never stops (R53, R142). -/
def Obligations.EveryStepCompletes : Prop :=
  (∀ s : State, ∃ t, step s = .next t) ∧ ∀ (i : Instr) (s : State), ∃ t, exec i s = .next t

/-- With no event pending nothing changes (R11). That the idle block answers its own state as the next one is the model's
choice (log 2). -/
def Obligations.IdleBlockKeepsItsState : Prop := ∀ s : State, s.pending = [] → step s = .next s

/-- The first failure is the last event of an attempt: while no INIT and no hardware reset is among the pending events, a
faulted block keeps its error code, its flags, its records, its lengths and the memories `PAL` and `OUT` through any
number of steps, from any faulted state (R135, R145). -/
def Obligations.FailureLatchesUntilInit : Prop :=
  ∀ (n : Nat) (s t : State), s.err ≠ none → (∀ e ∈ s.pending, clearsFault e = false) →
    Sys2Proof.Machine.run n s = .next t →
    t.err = s.err ∧ t.done = s.done ∧ t.chR = s.chR ∧ t.chG = s.chG ∧ t.chB = s.chB ∧
    t.palLen = s.palLen ∧ t.outLen = s.outLen ∧ t.outStride = s.outStride ∧ t.pal = s.pal ∧ t.out = s.out

/-! ### Host access -/

/-- R132: the effect of `WR off, data`. -/
def Obligations.RegisterWrites : Prop :=
  ∀ (s : State) (rest : List HostEvent) (off : Nat) (v : Word), s.pending = .issue (.wr off v) :: rest →
    ((off % 4 ≠ 0 ∨ 0x70 ≤ off ∨ off ∈ [0x38, 0x3C, 0x4C, 0x5C, 0x6C]) → step s = .next { s with pending := rest }) ∧
    (off = 0x00 → step s = acceptCommand v { s with pending := rest }) ∧
    (off = 0x08 → step s = .next { s with pending := rest, cfg := v &&& 0x0303FFFF#32 }) ∧
    (off = 0x0C → step s = .next { s with pending := rest, arg := v }) ∧
    (off = 0x10 → step s = .next { s with pending := rest, srcLen := v }) ∧
    (off = 0x14 → step s = .next { s with pending := rest, pos := v }) ∧
    (off = 0x18 → step s = .next { s with pending := rest, fileSize := v }) ∧
    (off = 0x1C → step s = .next { s with pending := rest, dataOffset := v }) ∧
    (off = 0x20 → step s = .next { s with pending := rest, width := v }) ∧
    (off = 0x24 → step s = .next { s with pending := rest, height := v }) ∧
    (off = 0x28 → step s = .next { s with pending := rest, palSize := v }) ∧
    (off ∈ [0x04, 0x2C, 0x30, 0x34, 0x40, 0x44, 0x48, 0x50, 0x54, 0x58, 0x60, 0x64, 0x68] →
      step s = .next { s with pending := rest })

/-- R133: what `RD off` returns, and that it changes nothing else. The data returned goes to `replies` (log 4). -/
def Obligations.RegisterReads : Prop :=
  ∀ (s : State) (rest : List HostEvent) (off : Nat), s.pending = .issue (.rd off) :: rest →
    ∃ v, step s = .next { s with pending := rest, replies := s.replies ++ [.word v] } ∧
      ((off % 4 ≠ 0 ∨ 0x70 ≤ off ∨ off ∈ [0x38, 0x3C, 0x4C, 0x5C, 0x6C] ∨ off = 0x00) → v = 0x00000000#32) ∧
      (off = 0x04 → v.toNat =
        s.errNumber + 8 * (if s.done then 1 else 0) + 16 * (if s.palLen ≠ 0#32 then 1 else 0)) ∧
      (off = 0x08 → v = s.cfg) ∧ (off = 0x0C → v = s.arg) ∧ (off = 0x10 → v = s.srcLen) ∧ (off = 0x14 → v = s.pos) ∧
      (off = 0x18 → v = s.fileSize) ∧ (off = 0x1C → v = s.dataOffset) ∧ (off = 0x20 → v = s.width) ∧
      (off = 0x24 → v = s.height) ∧ (off = 0x28 → v = s.palSize) ∧ (off = 0x2C → v = s.palLen) ∧
      (off = 0x30 → v = s.outLen) ∧ (off = 0x34 → v = s.outStride) ∧
      (∀ c : BitVec 2, c ≠ 3#2 →
        (off = 0x40 + 0x10 * c.toNat → v = (State.channel c s).mask) ∧
        (off = 0x44 + 0x10 * c.toNat → v = (State.channel c s).lowBit) ∧
        (off = 0x48 + 0x10 * c.toNat → v = (State.channel c s).range))

/-- `OUTRD addr` returns the byte of `OUT` below `OUT_LEN` and 0 at or above it, and changes nothing else (R134, its first
two sentences). The data returned goes to `replies` (log 4). -/
def Obligations.OutputReads : Prop :=
  ∀ (s : State) (rest : List HostEvent) (addr : Word), s.pending = .issue (.outrd addr) :: rest →
    ∃ b, step s = .next { s with pending := rest, replies := s.replies ++ [.byte b] } ∧
      (addr.toNat < s.outLen.toNat → b = s.outByte addr.toNat) ∧
      (s.outLen.toNat ≤ addr.toNat → b = 0x00#8) ∧
      (s.outLen.toNat ≤ s.outCap → s.outCap ≤ addr.toNat → b = 0x00#8)

/-- R44: reserved offsets: a read returns 0, a write is ignored, neither has a side effect and neither is an error. -/
def Obligations.ReservedOffsetsAreInert : Prop :=
  ∀ (s : State) (rest : List HostEvent) (off : Nat) (v : Word),
    (off ∈ [0x38, 0x3C, 0x4C, 0x5C, 0x6C] ∨ 0x70 ≤ off) →
    (s.pending = .issue (.wr off v) :: rest → step s = .next { s with pending := rest }) ∧
    (s.pending = .issue (.rd off) :: rest →
      step s = .next { s with pending := rest, replies := s.replies ++ [.word 0x00000000#32] })

/-- The fields of the word a read of `STATUS` returns (R23, R141). -/
def Obligations.StatusWordFields : Prop :=
  ∀ s : State,
    (s.statusWord.extractLsb' 0 3).toNat =
      (match s.err with
       | none => 0
       | some .ioError => 1
       | some .fileInvalid => 2
       | some .fileNotSupported => 3
       | some .outOfMemory => 4
       | some .badCmd => 5) ∧
    s.statusWord.getLsbD 3 = s.done ∧ s.statusWord.getLsbD 4 = decide (s.palLen ≠ 0#32) ∧
    s.statusWord.extractLsb' 5 27 = 0#27

/-- After `WR CFG, w` each field of `CFG` is the field of `w` and the reserved bits are 0 (R24). -/
def Obligations.CfgWriteStoresItsFields : Prop :=
  ∀ (s : State) (rest : List HostEvent) (w : Word), s.pending = .issue (.wr 0x08 w) :: rest →
    ∃ t, step s = .next t ∧ t = { s with pending := rest, cfg := t.cfg } ∧
      t.bpp = w.extractLsb' 0 16 ∧ t.comp = w.extractLsb' 16 2 ∧ t.es4 = w.getLsbD 24 ∧ t.bmiu = w.getLsbD 25 ∧
      t.cfg.extractLsb' 18 6 = 0#6 ∧ t.cfg.extractLsb' 26 6 = 0#6

/-- Every read is free of side effects and idempotent (R53): repeated, it returns the same value and changes nothing. -/
def Obligations.ReadsAreIdempotent : Prop :=
  (∀ (s : State) (rest : List HostEvent) (off : Nat), s.pending = .issue (.rd off) :: .issue (.rd off) :: rest →
    ∃ v, Sys2Proof.Machine.run 2 s =
      .next { s with pending := rest, replies := s.replies ++ [.word v, .word v] }) ∧
  (∀ (s : State) (rest : List HostEvent) (a : Word), s.pending = .issue (.outrd a) :: .issue (.outrd a) :: rest →
    ∃ b, Sys2Proof.Machine.run 2 s =
      .next { s with pending := rest, replies := s.replies ++ [.byte b, .byte b] })

/-- A byte the host places in `SRC` is read there and nowhere else, and nothing else changes. The event is the model's form
of what R39 leaves outside the spec (log 3). -/
def Obligations.PlacedByteIsReadBack : Prop :=
  ∀ (s : State) (rest : List HostEvent) (a : Word) (b : Byte), s.pending = .placeSrc a b :: rest →
    ∃ t, step s = .next t ∧ t = { s with pending := rest, src := t.src } ∧
      t.srcByte a.toNat = b ∧ ∀ x, x ≠ a.toNat → t.srcByte x = s.srcByte x

/-- R78: each pseudo-instruction does what its expansion says. The last clause holds for every address; that OUTRD4's
addresses wrap at 2^32 is the model's choice (log 13), and no value is claimed of bytes read there. -/
def Obligations.PseudoInstructionsExpand : Prop :=
  ∀ (s : State) (rest : List HostEvent),
    (∀ (c : BitVec 2) (imm : Word), c ≠ 3#2 → s.err = none → s.pending = analyzeImm c imm ++ rest →
      Sys2Proof.Machine.run 2 s =
        exec (.analyze c) { s with pending := rest, arg := imm }) ∧
    (∀ (bpp : BitVec 16) (comp : BitVec 2) (es4 bmiu : Bool), s.pending = setCfg bpp comp es4 bmiu ++ rest →
      ∃ t, step s = .next t ∧ t = { s with pending := rest, cfg := t.cfg } ∧
        t.bpp = bpp ∧ t.comp = comp ∧ t.es4 = es4 ∧ t.bmiu = bmiu) ∧
    (s.err = none → s.pos.toNat + 12 ≤ s.srcLen.toNat → s.pending = ldMasks ++ rest →
      ∃ t, Sys2Proof.Machine.run 3 s = .next t ∧
        t = { s with pending := rest, pos := t.pos, chR := t.chR, chG := t.chG, chB := t.chB } ∧
        t.pos.toNat = s.pos.toNat + 12 ∧
        t.chR = recordOf (leWord (s.srcByte s.pos.toNat) (s.srcByte (s.pos.toNat + 1)) (s.srcByte (s.pos.toNat + 2))
          (s.srcByte (s.pos.toNat + 3))) ∧
        t.chG = recordOf (leWord (s.srcByte (s.pos.toNat + 4)) (s.srcByte (s.pos.toNat + 5))
          (s.srcByte (s.pos.toNat + 6)) (s.srcByte (s.pos.toNat + 7))) ∧
        t.chB = recordOf (leWord (s.srcByte (s.pos.toNat + 8)) (s.srcByte (s.pos.toNat + 9))
          (s.srcByte (s.pos.toNat + 10)) (s.srcByte (s.pos.toNat + 11)))) ∧
    (∀ addr : Word, s.pending = outRd4 addr ++ rest →
      ∃ b0 b1 b2 b3, Sys2Proof.Machine.run 4 s =
        .next { s with pending := rest, replies := s.replies ++ [.byte b0, .byte b1, .byte b2, .byte b3] } ∧
        (addr.toNat + 3 < s.outLen.toNat →
          b0 = s.outByte addr.toNat ∧ b1 = s.outByte (addr.toNat + 1) ∧ b2 = s.outByte (addr.toNat + 2) ∧
          b3 = s.outByte (addr.toNat + 3)))

/-! ### NOP, ANALYZE, LDMASK -/

/-- R130: NOP changes nothing; while faulted it is ignored, which is the same. -/
def Obligations.NopChangesNothing : Prop :=
  (∀ s : State, exec .nop s = .next s) ∧
  ∀ (s : State) (rest : List HostEvent), s.pending = .issue (.wr 0x00 0x00000000#32) :: rest →
    step s = .next { s with pending := rest }

/-- R90: the analysis function: the lowest set bit, the range up to the highest set bit, and the zero mask. -/
def Obligations.AnalyzeFunction : Prop :=
  analyze 0#32 = (0#32, 255#32) ∧
  (∀ v : Word, v ≠ 0#32 → ∃ lo hi : Nat,
    lo ≤ hi ∧ hi ≤ 31 ∧ v.getLsbD lo = true ∧ v.getLsbD hi = true ∧
    (∀ i, i < 32 → v.getLsbD i = true → lo ≤ i ∧ i ≤ hi) ∧
    (analyze v).1.toNat = lo ∧ (analyze v).2.toNat = 2 ^ (hi - lo + 1) - 1)

/-- The properties of the analysis function that the spec infers below R90: the range is positive and one less than a
power of two, it is 2^32 - 1 exactly when bits 0 and 31 are set, it does not see clear bits between the outermost set
bits, and a zero mask cannot be told from 0xFF by it. -/
def Obligations.AnalyzeFunctionProperties : Prop :=
  (∀ v : Word, 1 ≤ (analyze v).2.toNat ∧ ∃ k, (analyze v).2.toNat + 1 = 2 ^ k) ∧
  (∀ v : Word, (analyze v).2 = 0xFFFFFFFF#32 ↔ v.getLsbD 0 = true ∧ v.getLsbD 31 = true) ∧
  (∀ (v w : Word) (lo hi : Nat), v.getLsbD lo = true → v.getLsbD hi = true → w.getLsbD lo = true →
    w.getLsbD hi = true → (∀ i, v.getLsbD i = true ∨ w.getLsbD i = true → lo ≤ i ∧ i ≤ hi) → analyze v = analyze w) ∧
  analyze 0b101#32 = (0#32, 7#32) ∧ analyze 0b111#32 = (0#32, 7#32) ∧ analyze 0x000000FF#32 = analyze 0#32

/-- R91: ANALYZE c writes `ch[c]` from `ARG` and changes nothing else; its corner cases; repeating it changes nothing. -/
def Obligations.AnalyzeWritesItsRecord : Prop :=
  ∀ s : State,
    exec (.analyze 0#2) s = .next { s with chR := ⟨s.arg, (analyze s.arg).1, (analyze s.arg).2⟩ } ∧
    exec (.analyze 1#2) s = .next { s with chG := ⟨s.arg, (analyze s.arg).1, (analyze s.arg).2⟩ } ∧
    exec (.analyze 2#2) s = .next { s with chB := ⟨s.arg, (analyze s.arg).1, (analyze s.arg).2⟩ } ∧
    (∀ (c : BitVec 2) (t : State), c ≠ 3#2 → exec (.analyze c) s = .next t → exec (.analyze c) t = .next t) ∧
    (s.arg = 0#32 → exec (.analyze 0#2) s = .next { s with chR := ⟨0#32, 0#32, 255#32⟩ }) ∧
    (s.arg = 0x80000000#32 → exec (.analyze 0#2) s = .next { s with chR := ⟨0x80000000#32, 31#32, 1#32⟩ }) ∧
    (s.arg = 0xFFFFFFFF#32 → exec (.analyze 0#2) s = .next { s with chR := ⟨0xFFFFFFFF#32, 0#32, 0xFFFFFFFF#32⟩ }) ∧
    (s.arg = 0x0000F800#32 → exec (.analyze 0#2) s = .next { s with chR := ⟨0x0000F800#32, 11#32, 31#32⟩ })

/-- A meaning given the ill-formed channel 3, which no word encodes, raises `BAD_CMD` (the model's choice, log 8). -/
def Obligations.ChannelThreeRaisesBadCmd : Prop :=
  ∀ (s : State) (f : BitVec 2 → Instr), f ∈ [Instr.analyze, Instr.ldmask] → exec (f 3#2) s = .next
    { s with err := some .badCmd, done := false, palLen := 0#32, outLen := 0#32, outStride := 0#32 }

/-- R92 and R93: LDMASK c: with four bytes remaining it reads the little-endian word at the cursor, advances the cursor by
4 without wrap and writes `ch[c]`; with fewer it raises `IO_ERROR`, `POS` and `ch[c]` unchanged. -/
def Obligations.LdmaskReadsAndAnalyzes : Prop :=
  ∀ (s : State) (c : BitVec 2), c ≠ 3#2 →
    (s.pos.toNat + 4 ≤ s.srcLen.toNat → ∃ (t : State) (v : Word), exec (.ldmask c) s = .next t ∧
      v.toNat = (s.srcByte s.pos.toNat).toNat + 2 ^ 8 * (s.srcByte (s.pos.toNat + 1)).toNat
        + 2 ^ 16 * (s.srcByte (s.pos.toNat + 2)).toNat + 2 ^ 24 * (s.srcByte (s.pos.toNat + 3)).toNat ∧
      t.pos.toNat = s.pos.toNat + 4 ∧
      State.channel c t = ⟨v, (analyze v).1, (analyze v).2⟩ ∧
      (∀ d : BitVec 2, d ≠ c → State.channel d t = State.channel d s) ∧
      t = { s with pos := t.pos, chR := t.chR, chG := t.chG, chB := t.chB }) ∧
    (s.srcLen.toNat < s.pos.toNat + 4 → exec (.ldmask c) s = .next
      { s with err := some .ioError, done := false, palLen := 0#32, outLen := 0#32, outStride := 0#32 })

/-! ### LDPAL -/

/-- R100: LDPAL: when its condition holds and nothing fails, the copy; when the condition does not hold, no palette; and
its two failures in their order. -/
def Obligations.LdpalFillsThePalette : Prop :=
  ∀ s : State,
    ((s.bpp.toNat ≤ 8 ∧ 0 < s.palSize.toNat ∧ s.bmiu = false) →
      (s.palSize.toNat ≤ s.palCap → s.pos.toNat + s.palSize.toNat ≤ s.srcLen.toNat →
        ∃ t, exec .ldpal s = .next t ∧ t = { s with pal := t.pal, palLen := s.palSize, pos := t.pos } ∧
          t.pos.toNat = s.pos.toNat + s.palSize.toNat ∧
          (∀ k, k < s.palSize.toNat → t.palByte k = s.srcByte (s.pos.toNat + k)) ∧
          (∀ a, s.palSize.toNat ≤ a → t.palByte a = s.palByte a)) ∧
      (s.palCap < s.palSize.toNat → exec .ldpal s = .next
        { s with err := some .outOfMemory, done := false, palLen := 0#32, outLen := 0#32, outStride := 0#32 }) ∧
      (s.palSize.toNat ≤ s.palCap → s.srcLen.toNat < s.pos.toNat + s.palSize.toNat → exec .ldpal s = .next
        { s with err := some .fileInvalid, done := false, palLen := 0#32, outLen := 0#32, outStride := 0#32 })) ∧
    (¬ (s.bpp.toNat ≤ 8 ∧ 0 < s.palSize.toNat ∧ s.bmiu = false) →
      exec .ldpal s = .next { s with palLen := 0#32 })

/-! ### UNPACK -/

/-- R117: when no check fails, UNPACK answers a next state with the output length, stride, cursor, `DONE` and released
palette of R117, every other register unchanged; success or failure, no palette is left, so that a second UNPACK takes the
monochrome path; and no other command, event or failure writes `OUT`. -/
def Obligations.UnpackCompletes : Prop :=
  (∀ s : State, ParamsLegal s → UnpackAccepts s →
    ∃ t, exec .unpack s = .next t ∧
      t = { s with
            out := t.out, outLen := t.outLen, outStride := t.outStride, pos := t.pos, palLen := 0#32, done := true } ∧
      t.outLen.toNat = 4 * s.width.toNat * s.height.toNat ∧ t.outStride.toNat = 4 * s.width.toNat ∧
      t.pos.toNat = s.dataOffset.toNat + s.height.toNat * rowStep s) ∧
  (∀ s t : State, exec .unpack s = .next t → t.palLen = 0#32 ∧ ∀ b, t.pixelBytes b = monoPixel b) ∧
  (∀ s t : State, step s = .next t → t.out ≠ s.out →
    s.err = none ∧ ∃ rest, s.pending = .issue (.wr 0x00 0x00000005#32) :: rest)

/-- The monochrome path (R115): with no palette every stored bit 1 gives white, every 0 black, alpha 255, at its place of
R116; every byte of `OUT` outside the image is unchanged. -/
def Obligations.UnpackMonochromePixels : Prop :=
  ∀ s : State, UnpackAccepts s → s.palLen = 0#32 →
    ∃ t, exec .unpack s = .next t ∧
      (∀ i j, i < s.height.toNat → j < s.width.toNat →
        (∀ k, k < 3 → t.outByte (4 * (i * s.width.toNat + j) + k) = if storedBit s i j then 255#8 else 0#8) ∧
        t.outByte (4 * (i * s.width.toNat + j) + 3) = 255#8) ∧
      (∀ a, 4 * s.width.toNat * s.height.toNat ≤ a → t.outByte a = s.outByte a)

/-- The palette path (R114): with a palette every stored bit selects entry 0 or 1, whose bytes B, G, R become R, G, B with
alpha 255, at its place of R116; every byte of `OUT` outside the image is unchanged; a palette of fewer than two entries
is refused, whatever the width. -/
def Obligations.UnpackPalettePixels : Prop :=
  (∀ s : State, UnpackAccepts s → s.palLen ≠ 0#32 →
    ∃ t, exec .unpack s = .next t ∧
      (∀ i j, i < s.height.toNat → j < s.width.toNat →
        ∀ e, e = (if storedBit s i j then (if s.cfg.getLsbD 24 then 4 else 3) else 0) →
        t.outByte (4 * (i * s.width.toNat + j)) = s.palByte (e + 2) ∧
        t.outByte (4 * (i * s.width.toNat + j) + 1) = s.palByte (e + 1) ∧
        t.outByte (4 * (i * s.width.toNat + j) + 2) = s.palByte e ∧
        t.outByte (4 * (i * s.width.toNat + j) + 3) = 255#8) ∧
      (∀ a, 4 * s.width.toNat * s.height.toNat ≤ a → t.outByte a = s.outByte a)) ∧
  ∀ s : State, GeometryAccepts s → s.palLen ≠ 0#32 → s.palLen.toNat < 2 * (if s.cfg.getLsbD 24 then 4 else 3) →
    exec .unpack s = .next
      { s with err := some .fileInvalid, done := false, palLen := 0#32, outLen := 0#32, outStride := 0#32 }

/-- The seven checks of UNPACK, in their order, each with its code; a failure writes nothing but what `Fail` writes
(R110, R144 item 4). -/
def Obligations.UnpackChecksInOrder : Prop :=
  ∀ s : State,
    ((s.bpp ≠ 1#16 ∨ s.comp ≠ 0#2) → exec .unpack s = .next (s.fail .fileNotSupported)) ∧
    (s.bpp = 1#16 → s.comp = 0#2 →
      (s.height = 0#32 → exec .unpack s = .next (s.fail .fileInvalid)) ∧
      (s.height ≠ 0#32 →
        (s.fileSize.toNat < s.dataOffset.toNat → exec .unpack s = .next (s.fail .fileInvalid)) ∧
        (s.dataOffset.toNat ≤ s.fileSize.toNat →
          ∀ S, S = (s.fileSize.toNat - s.dataOffset.toNat) / s.height.toNat →
          (8 * S < s.width.toNat → exec .unpack s = .next (s.fail .fileInvalid)) ∧
          (s.width.toNat ≤ 8 * S →
            (s.palLen ≠ 0#32 → s.palLen.toNat < 2 * s.elementSize → exec .unpack s = .next (s.fail .fileInvalid)) ∧
            ((s.palLen = 0#32 ∨ 2 * s.elementSize ≤ s.palLen.toNat) →
              (s.outCap < 4 * s.width.toNat * s.height.toNat → exec .unpack s = .next (s.fail .outOfMemory)) ∧
              (4 * s.width.toNat * s.height.toNat ≤ s.outCap →
                (s.width ≠ 0#32 → s.srcLen.toNat < s.dataOffset.toNat + (s.height.toNat - 1) * s.rowAdvance
                    + (s.width.toNat + 7) / 8 → exec .unpack s = .next (s.fail .ioError)) ∧
                ((s.width = 0#32 ∨ s.dataOffset.toNat + (s.height.toNat - 1) * s.rowAdvance
                    + (s.width.toNat + 7) / 8 ≤ s.srcLen.toNat) →
                  exec .unpack s = .next (unpackImage s))))))))

/-- R119: `BPP` other than 1, or `BPP` = 1 with `COMP` 1, 2 or 3, raises `FILE_NOT_SUPPORTED` whatever else is wrong, and
produces no pixel. -/
def Obligations.UnsupportedDepthsAreRefused : Prop :=
  ∀ s : State, (s.bpp ≠ 1#16 ∨ (s.bpp = 1#16 ∧ (s.comp = 1#2 ∨ s.comp = 2#2 ∨ s.comp = 3#2))) →
    ∃ t, exec .unpack s = .next t ∧ t.errNumber = 3 ∧ t.outLen = 0#32 ∧ t.out = s.out ∧ (∀ a, outRead a t = 0#8) ∧
      t = { s with
            err := some .fileNotSupported, done := false, palLen := 0#32, outLen := 0#32, outStride := 0#32 }

/-- The identities the spec infers in R118 (items 1, 2, 3 and 6): when checks 1 to 4 pass, the skip is
`P div 8 = S - ceil8(W)`, the row cursor moves by exactly `S` and ends at most at `FILE_SIZE`, check 7 is the condition on
`S`, and an image of width 0 is empty. -/
def Obligations.RowAdvanceIsDeclaredRow : Prop :=
  ∀ s : State, s.height ≠ 0#32 → s.dataOffset.toNat ≤ s.fileSize.toNat → s.width.toNat ≤ 8 * s.declaredRow →
    ceil8 s.width.toNat ≤ s.declaredRow ∧
    skipBytes s.scanPadding = s.scanPadding / 8 ∧ skipBytes s.scanPadding = s.declaredRow - ceil8 s.width.toNat ∧
    s.rowAdvance = s.declaredRow ∧ rowStep s = s.declaredRow ∧ (∀ i, s.rowCursor i = s.dataOffset.toNat + i * s.declaredRow) ∧
    s.rowCursor s.height.toNat ≤ s.fileSize.toNat ∧
    ((0 < s.width.toNat ∧ s.srcLen.toNat < s.rowCursor (s.height.toNat - 1) + ceil8 s.width.toNat) ↔
      (0 < s.width.toNat ∧ s.srcLen.toNat <
        s.dataOffset.toNat + (s.height.toNat - 1) * s.declaredRow + ceil8 s.width.toNat)) ∧
    (s.width = 0#32 → s.imageBytes = [])

/-- R112: the skip rule in its two branches, and that both equal `P div 8`. -/
def Obligations.SkipRuleBranches : Prop :=
  ∀ p : Nat, (p % 2 = 0 → skipBytes p = p / 8) ∧ (p % 2 ≠ 0 → skipBytes p = (p - 1) / 8) ∧ skipBytes p = p / 8

/-- After an accepted UNPACK exactly one of `DONE` = 1 and `ERR != 0` holds (R168). -/
def Obligations.AcceptedUnpackEndsTheAttempt : Prop :=
  ∀ (s : State) (rest : List HostEvent), s.err = none → s.pending = .issue (.wr 0x00 0x00000005#32) :: rest →
    ∃ t, step s = .next t ∧ ((t.done = true ∧ t.err = none) ∨ (t.done = false ∧ t.err ≠ none))

/-! ### Failures -/

/-- R140: a command that fails changes exactly the five things `Fail` changes: failures are precise; and the block then
ignores every command but INIT. -/
def Obligations.FailuresArePrecise : Prop :=
  ∀ (s t : State) (rest : List HostEvent) (w : Word) (code : FailCode), s.err = none →
    s.pending = .issue (.wr 0x00 w) :: rest → step s = .next t → t.err = some code →
    t = { s with
          pending := rest, err := some code, done := false, palLen := 0#32, outLen := 0#32, outStride := 0#32 } ∧
    ∀ (later : List HostEvent) (v : Word), rest = .issue (.wr 0x00 v) :: later → v ≠ 0x00000001#32 →
      step t = .next { t with pending := later }

/-- R142 with the priority of R144: every cause of every code, exhaustively, for a word written to `CMD` of a block that is
not faulted; and no other event raises a failure. -/
def Obligations.FailureCausesAreExhaustive : Prop :=
  (∀ (s t : State) (rest : List HostEvent) (w : Word), s.err = none → s.pending = .issue (.wr 0x00 w) :: rest →
    step s = .next t →
    (t.err = some .badCmd ↔ ∃ e, decode w = .error e) ∧
    (t.err = some .fileNotSupported ↔ decode w = .ok .unpack ∧ (s.bpp ≠ 1#16 ∨ s.comp ≠ 0#2)) ∧
    (t.err = some .outOfMemory ↔
      (decode w = .ok .ldpal ∧ (s.bpp.toNat ≤ 8 ∧ 0 < s.palSize.toNat ∧ s.bmiu = false) ∧ s.palCap < s.palSize.toNat) ∨
      (decode w = .ok .unpack ∧ s.bpp = 1#16 ∧ s.comp = 0#2 ∧ s.height ≠ 0#32 ∧
        s.dataOffset.toNat ≤ s.fileSize.toNat ∧ s.width.toNat ≤ 8 * s.declaredRow ∧
        ¬ (s.palLen ≠ 0#32 ∧ s.palLen.toNat < 2 * s.elementSize) ∧
        s.outCap < 4 * s.width.toNat * s.height.toNat)) ∧
    (t.err = some .fileInvalid ↔
      (decode w = .ok .ldpal ∧ (s.bpp.toNat ≤ 8 ∧ 0 < s.palSize.toNat ∧ s.bmiu = false) ∧ s.palSize.toNat ≤ s.palCap ∧
        s.srcLen.toNat < s.pos.toNat + s.palSize.toNat) ∨
      (decode w = .ok .unpack ∧ s.bpp = 1#16 ∧ s.comp = 0#2 ∧
        (s.height = 0#32 ∨ s.fileSize.toNat < s.dataOffset.toNat ∨ 8 * s.declaredRow < s.width.toNat ∨
          (s.palLen ≠ 0#32 ∧ s.palLen.toNat < 2 * s.elementSize)))) ∧
    (t.err = some .ioError ↔
      (∃ c, decode w = .ok (.ldmask c) ∧ s.srcLen.toNat < s.pos.toNat + 4) ∨
      (decode w = .ok .unpack ∧ s.bpp = 1#16 ∧ s.comp = 0#2 ∧ s.height ≠ 0#32 ∧
        s.dataOffset.toNat ≤ s.fileSize.toNat ∧ s.width.toNat ≤ 8 * s.declaredRow ∧
        ¬ (s.palLen ≠ 0#32 ∧ s.palLen.toNat < 2 * s.elementSize) ∧
        4 * s.width.toNat * s.height.toNat ≤ s.outCap ∧ 0 < s.width.toNat ∧
        s.srcLen.toNat < s.dataOffset.toNat + (s.height.toNat - 1) * s.rowAdvance + ceil8 s.width.toNat))) ∧
  (∀ (s t : State), step s = .next t → t.err ≠ none → t.err ≠ s.err →
    s.err = none ∧ ∃ w rest, s.pending = .issue (.wr 0x00 w) :: rest)

/-! ### Who writes what, and what no one can see -/

/-- Only LDPAL writes `PAL` and only the host writes `SRC`; the parameters never change (R37, R39, R43). -/
def Obligations.MemoriesHaveOneWriter : Prop :=
  ∀ s t : State, step s = .next t →
    (t.pal ≠ s.pal → s.err = none ∧ ∃ rest, s.pending = .issue (.wr 0x00 0x00000004#32) :: rest) ∧
    (t.src ≠ s.src → ∃ a b rest, s.pending = .placeSrc a b :: rest) ∧
    t.palCap = s.palCap ∧ t.outCap = s.outCap

/-- Bytes of `PAL` at or above `PAL_LEN` and of `OUT` at or above `OUT_LEN` are not observable (R37, R38, R41): two states
that differ only there stay so through any number of steps, and give the host the same data. -/
def Obligations.StaleBytesAreUnobservable : Prop :=
  ∀ (n : Nat) (s t s' : State), SameButUnobservable s t → Sys2Proof.Machine.run n s = .next s' →
    ∃ t', Sys2Proof.Machine.run n t = .next t' ∧ SameButUnobservable s' t' ∧ s'.replies = t'.replies

/-- No operation reads `SRC` at an address at or above `SRC_LEN` (R54, its first sentence): two states that differ only in
such bytes take steps that differ only in `SRC`. -/
def Obligations.NothingReadsBeyondSrcLen : Prop :=
  ∀ s t s' : State, SameBelowSrcLen s t → step s = .next s' →
    ∃ t', step t = .next t' ∧ t' = { s' with src := t'.src }
end

