-- ==== Sys2Proof/Laws/Decode.lean ====
section
/-! SUPPORT. The three fields of a command word: what the encoder puts in each, and that they are the whole word. -/

namespace Sys2Proof

theorem opField_toNat (w : Word) : (opField w).toNat = w.toNat % 2 ^ 8 := by
  simp [opField]

theorem chField_toNat (w : Word) : (chField w).toNat = w.toNat / 2 ^ 8 % 2 ^ 2 := by
  simp [chField, Nat.shiftRight_eq_div_pow]

theorem rsvField_toNat (w : Word) : (rsvField w).toNat = w.toNat / 2 ^ 10 % 2 ^ 22 := by
  simp [rsvField, Nat.shiftRight_eq_div_pow]

theorem commandWord_toNat (op : BitVec 8) (ch : BitVec 2) :
    (commandWord op ch).toNat = op.toNat + 2 ^ 8 * ch.toNat := by
  have h1 := op.isLt
  have h2 := ch.isLt
  rw [commandWord, BitVec.toNat_ofNat, Nat.mod_eq_of_lt (by omega)]

@[simp] theorem opField_commandWord (op : BitVec 8) (ch : BitVec 2) : opField (commandWord op ch) = op := by
  apply BitVec.eq_of_toNat_eq
  have := op.isLt
  rw [opField_toNat, commandWord_toNat]
  omega

@[simp] theorem chField_commandWord (op : BitVec 8) (ch : BitVec 2) : chField (commandWord op ch) = ch := by
  apply BitVec.eq_of_toNat_eq
  have := op.isLt
  have := ch.isLt
  rw [chField_toNat, commandWord_toNat]
  omega

@[simp] theorem rsvField_commandWord (op : BitVec 8) (ch : BitVec 2) : rsvField (commandWord op ch) = 0#22 := by
  apply BitVec.eq_of_toNat_eq
  have := op.isLt
  have := ch.isLt
  rw [rsvField_toNat, commandWord_toNat, BitVec.toNat_ofNat]
  omega

/-- A word with `RSV` = 0 is the word of its own fields. -/
theorem commandWord_fields {w : Word} (h : rsvField w = 0#22) : commandWord (opField w) (chField w) = w := by
  apply BitVec.eq_of_toNat_eq
  have hlt := w.isLt
  have h := congrArg BitVec.toNat h
  rw [rsvField_toNat, BitVec.toNat_ofNat] at h
  rw [commandWord_toNat, opField_toNat, chField_toNat]
  omega

end Sys2Proof
end

