-- ==== Sys2Proof/Laws/Memory.lean ====
section
/-! SUPPORT. What a byte memory reads after a write, and that writes keep the canonical form. -/

namespace Sys2Proof.Machine

@[simp] theorem Memory.byteAt_nil (x : Nat) : Memory.byteAt [] x = none := rfl

theorem Memory.byteAt_cons (c : Host.Cell) (m : Memory) (x : Nat) :
    Memory.byteAt (c :: m) x = if c.1 = x then some c.2 else Memory.byteAt m x := rfl

theorem Memory.byteAt_append (m n : Memory) (x : Nat) :
    Memory.byteAt (m ++ n) x = (Memory.byteAt m x).or (Memory.byteAt n x) := by
  induction m with
  | nil => simp
  | cons c m ih =>
    rw [List.cons_append, Memory.byteAt_cons, Memory.byteAt_cons, ih]
    split <;> simp

theorem Memory.byteAt_filter (p : Nat → Bool) (m : Memory) (x : Nat) :
    Memory.byteAt (m.filter (fun c => p c.1)) x = if p x then Memory.byteAt m x else none := by
  induction m with
  | nil => simp
  | cons c m ih =>
    by_cases hc : p c.1
    · rw [List.filter_cons_of_pos (by simpa using hc), Memory.byteAt_cons, Memory.byteAt_cons, ih]
      by_cases hx : c.1 = x
      · subst hx; simp [hc]
      · simp [hx]
    · rw [List.filter_cons_of_neg (by simpa using hc), Memory.byteAt_cons, ih]
      by_cases hx : c.1 = x
      · subst hx; simp [hc]
      · simp [hx]

theorem Memory.byteAt_cellsFrom (a : Nat) (bs : List Byte) (x : Nat) :
    Memory.byteAt (Memory.cellsFrom a bs) x = if a ≤ x then bs[x - a]? else none := by
  induction bs generalizing a with
  | nil => simp [Memory.cellsFrom]
  | cons b bs ih =>
    rw [Memory.cellsFrom, Memory.byteAt_cons, ih]
    by_cases hx : a = x
    · subst hx; simp
    · by_cases hle : a ≤ x
      · have hsub : x - a = (x - (a + 1)) + 1 := by omega
        have hle' : a + 1 ≤ x := by omega
        rw [if_neg hx, if_pos hle', if_pos hle, hsub, List.getElem?_cons_succ]
      · have hle' : ¬ a + 1 ≤ x := by omega
        rw [if_neg hx, if_neg hle', if_neg hle]

/-- A write gives the bytes written, in ascending order, and leaves every other address alone. -/
theorem Memory.byteAt_writeBytes (m : Memory) (a : Nat) (bs : List Byte) (x : Nat) :
    Memory.byteAt (Memory.writeBytes m a bs) x =
      if a ≤ x ∧ x < a + bs.length then bs[x - a]? else Memory.byteAt m x := by
  unfold Memory.writeBytes
  rw [Memory.byteAt_append, Memory.byteAt_append, Memory.byteAt_cellsFrom,
    Memory.byteAt_filter (fun k => decide (k < a)),
    Memory.byteAt_filter (fun k => decide (a + bs.length ≤ k))]
  by_cases hlo : x < a
  · have h1 : ¬ a ≤ x := by omega
    have h2 : ¬ a + bs.length ≤ x := by omega
    simp [hlo, h1, h2]
  · by_cases hhi : x < a + bs.length
    · have h1 : a ≤ x := by omega
      have h2 : ¬ a + bs.length ≤ x := by omega
      simp [hlo, h1, h2, hhi]
    · have h1 : a ≤ x := by omega
      have h2 : a + bs.length ≤ x := by omega
      have h3 : bs[x - a]? = none := List.getElem?_eq_none (by omega)
      simp [hlo, h1, h2, h3]

theorem Memory.mem_cellsFrom {a : Nat} {bs : List Byte} {c : Host.Cell} (h : c ∈ Memory.cellsFrom a bs) :
    a ≤ c.1 ∧ c.1 < a + bs.length := by
  induction bs generalizing a with
  | nil => cases h
  | cons b bs ih =>
    rw [Memory.cellsFrom, List.mem_cons] at h
    rcases h with rfl | h
    · simp
    · have := ih h; simp only [List.length_cons]; omega

/-- Every cell after a write was there before or is one of those written. -/
theorem Memory.mem_writeBytes {m : Memory} {a : Nat} {bs : List Byte} {c : Host.Cell}
    (h : c ∈ Memory.writeBytes m a bs) : c ∈ m ∨ (a ≤ c.1 ∧ c.1 < a + bs.length) := by
  unfold Memory.writeBytes at h
  rcases List.mem_append.1 h with h | h
  · rcases List.mem_append.1 h with h | h
    · exact .inl (List.mem_filter.1 h).1
    · exact .inr (Memory.mem_cellsFrom h)
  · exact .inl (List.mem_filter.1 h).1

theorem Memory.wf_cellsFrom (a : Nat) (bs : List Byte) : Memory.wf (Memory.cellsFrom a bs) := by
  induction bs generalizing a with
  | nil => exact List.Pairwise.nil
  | cons b bs ih =>
    refine List.Pairwise.cons (fun c hc => ?_) (ih (a + 1))
    have := Memory.mem_cellsFrom hc
    show a < c.1
    omega

/-- A write keeps the canonical form. -/
theorem Memory.wf_writeBytes {m : Memory} (h : Memory.wf m) (a : Nat) (bs : List Byte) :
    Memory.wf (Memory.writeBytes m a bs) := by
  unfold Memory.writeBytes
  refine List.pairwise_append.2 ⟨List.pairwise_append.2 ⟨h.filter _, Memory.wf_cellsFrom a bs, ?_⟩, h.filter _, ?_⟩
  · intro c hc d hd
    have h1 := (List.mem_filter.1 hc).2
    have h2 := Memory.mem_cellsFrom hd
    simp only [decide_eq_true_eq] at h1
    omega
  · intro c hc d hd
    have h2 := (List.mem_filter.1 hd).2
    simp only [decide_eq_true_eq] at h2
    rcases List.mem_append.1 hc with hc | hc
    · have h1 := (List.mem_filter.1 hc).2
      simp only [decide_eq_true_eq] at h1
      omega
    · have h1 := Memory.mem_cellsFrom hc
      omega

/-- The same for a memory with an entry bound: a write below the bound keeps every entry below it. -/
theorem Memory.bounded_writeBytes {m : Memory} {cap : Nat} (h : ∀ c ∈ m, c.1 < cap) {a : Nat} {bs : List Byte}
    (hfit : a + bs.length ≤ cap) : ∀ c ∈ Memory.writeBytes m a bs, c.1 < cap := by
  intro c hc
  rcases Memory.mem_writeBytes hc with hc | hc
  · exact h c hc
  · omega

theorem Memory.wf_nil : Memory.wf [] := List.Pairwise.nil

end Sys2Proof.Machine
end

