-- ==== Sys2Proof/Laws/State.lean ====
section
/-! SUPPORT. What each named update of State leaves in each field, one lemma a field, so that no proof unfolds an update. -/

namespace Sys2Proof.Machine

/-! `Fail(code)` (R140). -/

@[simp] theorem fail_err (code : FailCode) (s : State) : (s.fail code).err = some code := rfl
@[simp] theorem fail_done (code : FailCode) (s : State) : (s.fail code).done = false := rfl
@[simp] theorem fail_cfg (code : FailCode) (s : State) : (s.fail code).cfg = s.cfg := rfl
@[simp] theorem fail_arg (code : FailCode) (s : State) : (s.fail code).arg = s.arg := rfl
@[simp] theorem fail_srcLen (code : FailCode) (s : State) : (s.fail code).srcLen = s.srcLen := rfl
@[simp] theorem fail_pos (code : FailCode) (s : State) : (s.fail code).pos = s.pos := rfl
@[simp] theorem fail_fileSize (code : FailCode) (s : State) : (s.fail code).fileSize = s.fileSize := rfl
@[simp] theorem fail_dataOffset (code : FailCode) (s : State) : (s.fail code).dataOffset = s.dataOffset := rfl
@[simp] theorem fail_width (code : FailCode) (s : State) : (s.fail code).width = s.width := rfl
@[simp] theorem fail_height (code : FailCode) (s : State) : (s.fail code).height = s.height := rfl
@[simp] theorem fail_palSize (code : FailCode) (s : State) : (s.fail code).palSize = s.palSize := rfl
@[simp] theorem fail_palLen (code : FailCode) (s : State) : (s.fail code).palLen = 0#32 := rfl
@[simp] theorem fail_outLen (code : FailCode) (s : State) : (s.fail code).outLen = 0#32 := rfl
@[simp] theorem fail_outStride (code : FailCode) (s : State) : (s.fail code).outStride = 0#32 := rfl
@[simp] theorem fail_chR (code : FailCode) (s : State) : (s.fail code).chR = s.chR := rfl
@[simp] theorem fail_chG (code : FailCode) (s : State) : (s.fail code).chG = s.chG := rfl
@[simp] theorem fail_chB (code : FailCode) (s : State) : (s.fail code).chB = s.chB := rfl
@[simp] theorem fail_pal (code : FailCode) (s : State) : (s.fail code).pal = s.pal := rfl
@[simp] theorem fail_out (code : FailCode) (s : State) : (s.fail code).out = s.out := rfl
@[simp] theorem fail_src (code : FailCode) (s : State) : (s.fail code).src = s.src := rfl
@[simp] theorem fail_palCap (code : FailCode) (s : State) : (s.fail code).palCap = s.palCap := rfl
@[simp] theorem fail_outCap (code : FailCode) (s : State) : (s.fail code).outCap = s.outCap := rfl
@[simp] theorem fail_pending (code : FailCode) (s : State) : (s.fail code).pending = s.pending := rfl
@[simp] theorem fail_replies (code : FailCode) (s : State) : (s.fail code).replies = s.replies := rfl

/-! `INIT` and hardware reset (R42). -/

@[simp] theorem initRegs_err (s : State) : (s.initRegs).err = none := rfl
@[simp] theorem initRegs_done (s : State) : (s.initRegs).done = false := rfl
@[simp] theorem initRegs_cfg (s : State) : (s.initRegs).cfg = 0#32 := rfl
@[simp] theorem initRegs_arg (s : State) : (s.initRegs).arg = 0#32 := rfl
@[simp] theorem initRegs_srcLen (s : State) : (s.initRegs).srcLen = 0#32 := rfl
@[simp] theorem initRegs_pos (s : State) : (s.initRegs).pos = 0#32 := rfl
@[simp] theorem initRegs_fileSize (s : State) : (s.initRegs).fileSize = 0#32 := rfl
@[simp] theorem initRegs_dataOffset (s : State) : (s.initRegs).dataOffset = 0#32 := rfl
@[simp] theorem initRegs_width (s : State) : (s.initRegs).width = 0#32 := rfl
@[simp] theorem initRegs_height (s : State) : (s.initRegs).height = 0#32 := rfl
@[simp] theorem initRegs_palSize (s : State) : (s.initRegs).palSize = 0#32 := rfl
@[simp] theorem initRegs_palLen (s : State) : (s.initRegs).palLen = 0#32 := rfl
@[simp] theorem initRegs_outLen (s : State) : (s.initRegs).outLen = 0#32 := rfl
@[simp] theorem initRegs_outStride (s : State) : (s.initRegs).outStride = 0#32 := rfl
@[simp] theorem initRegs_chR (s : State) : (s.initRegs).chR = resetRecord := rfl
@[simp] theorem initRegs_chG (s : State) : (s.initRegs).chG = resetRecord := rfl
@[simp] theorem initRegs_chB (s : State) : (s.initRegs).chB = resetRecord := rfl
@[simp] theorem initRegs_pal (s : State) : (s.initRegs).pal = s.pal := rfl
@[simp] theorem initRegs_out (s : State) : (s.initRegs).out = s.out := rfl
@[simp] theorem initRegs_src (s : State) : (s.initRegs).src = s.src := rfl
@[simp] theorem initRegs_palCap (s : State) : (s.initRegs).palCap = s.palCap := rfl
@[simp] theorem initRegs_outCap (s : State) : (s.initRegs).outCap = s.outCap := rfl
@[simp] theorem initRegs_pending (s : State) : (s.initRegs).pending = s.pending := rfl
@[simp] theorem initRegs_replies (s : State) : (s.initRegs).replies = s.replies := rfl

/-! Data returned to the host (R70). -/

@[simp] theorem addReply_err (r : Reply) (s : State) : (s.addReply r).err = s.err := rfl
@[simp] theorem addReply_done (r : Reply) (s : State) : (s.addReply r).done = s.done := rfl
@[simp] theorem addReply_cfg (r : Reply) (s : State) : (s.addReply r).cfg = s.cfg := rfl
@[simp] theorem addReply_arg (r : Reply) (s : State) : (s.addReply r).arg = s.arg := rfl
@[simp] theorem addReply_srcLen (r : Reply) (s : State) : (s.addReply r).srcLen = s.srcLen := rfl
@[simp] theorem addReply_pos (r : Reply) (s : State) : (s.addReply r).pos = s.pos := rfl
@[simp] theorem addReply_fileSize (r : Reply) (s : State) : (s.addReply r).fileSize = s.fileSize := rfl
@[simp] theorem addReply_dataOffset (r : Reply) (s : State) : (s.addReply r).dataOffset = s.dataOffset := rfl
@[simp] theorem addReply_width (r : Reply) (s : State) : (s.addReply r).width = s.width := rfl
@[simp] theorem addReply_height (r : Reply) (s : State) : (s.addReply r).height = s.height := rfl
@[simp] theorem addReply_palSize (r : Reply) (s : State) : (s.addReply r).palSize = s.palSize := rfl
@[simp] theorem addReply_palLen (r : Reply) (s : State) : (s.addReply r).palLen = s.palLen := rfl
@[simp] theorem addReply_outLen (r : Reply) (s : State) : (s.addReply r).outLen = s.outLen := rfl
@[simp] theorem addReply_outStride (r : Reply) (s : State) : (s.addReply r).outStride = s.outStride := rfl
@[simp] theorem addReply_chR (r : Reply) (s : State) : (s.addReply r).chR = s.chR := rfl
@[simp] theorem addReply_chG (r : Reply) (s : State) : (s.addReply r).chG = s.chG := rfl
@[simp] theorem addReply_chB (r : Reply) (s : State) : (s.addReply r).chB = s.chB := rfl
@[simp] theorem addReply_pal (r : Reply) (s : State) : (s.addReply r).pal = s.pal := rfl
@[simp] theorem addReply_out (r : Reply) (s : State) : (s.addReply r).out = s.out := rfl
@[simp] theorem addReply_src (r : Reply) (s : State) : (s.addReply r).src = s.src := rfl
@[simp] theorem addReply_palCap (r : Reply) (s : State) : (s.addReply r).palCap = s.palCap := rfl
@[simp] theorem addReply_outCap (r : Reply) (s : State) : (s.addReply r).outCap = s.outCap := rfl
@[simp] theorem addReply_pending (r : Reply) (s : State) : (s.addReply r).pending = s.pending := rfl
@[simp] theorem addReply_replies (r : Reply) (s : State) : (s.addReply r).replies = s.replies ++ [r] := rfl

/-! A byte placed in `SRC` (R39). -/

@[simp] theorem placeByte_err (a : Word) (b : Byte) (s : State) : (s.placeByte a b).err = s.err := rfl
@[simp] theorem placeByte_done (a : Word) (b : Byte) (s : State) : (s.placeByte a b).done = s.done := rfl
@[simp] theorem placeByte_cfg (a : Word) (b : Byte) (s : State) : (s.placeByte a b).cfg = s.cfg := rfl
@[simp] theorem placeByte_arg (a : Word) (b : Byte) (s : State) : (s.placeByte a b).arg = s.arg := rfl
@[simp] theorem placeByte_srcLen (a : Word) (b : Byte) (s : State) : (s.placeByte a b).srcLen = s.srcLen := rfl
@[simp] theorem placeByte_pos (a : Word) (b : Byte) (s : State) : (s.placeByte a b).pos = s.pos := rfl
@[simp] theorem placeByte_fileSize (a : Word) (b : Byte) (s : State) : (s.placeByte a b).fileSize = s.fileSize := rfl
@[simp] theorem placeByte_dataOffset (a : Word) (b : Byte) (s : State) : (s.placeByte a b).dataOffset = s.dataOffset := rfl
@[simp] theorem placeByte_width (a : Word) (b : Byte) (s : State) : (s.placeByte a b).width = s.width := rfl
@[simp] theorem placeByte_height (a : Word) (b : Byte) (s : State) : (s.placeByte a b).height = s.height := rfl
@[simp] theorem placeByte_palSize (a : Word) (b : Byte) (s : State) : (s.placeByte a b).palSize = s.palSize := rfl
@[simp] theorem placeByte_palLen (a : Word) (b : Byte) (s : State) : (s.placeByte a b).palLen = s.palLen := rfl
@[simp] theorem placeByte_outLen (a : Word) (b : Byte) (s : State) : (s.placeByte a b).outLen = s.outLen := rfl
@[simp] theorem placeByte_outStride (a : Word) (b : Byte) (s : State) : (s.placeByte a b).outStride = s.outStride := rfl
@[simp] theorem placeByte_chR (a : Word) (b : Byte) (s : State) : (s.placeByte a b).chR = s.chR := rfl
@[simp] theorem placeByte_chG (a : Word) (b : Byte) (s : State) : (s.placeByte a b).chG = s.chG := rfl
@[simp] theorem placeByte_chB (a : Word) (b : Byte) (s : State) : (s.placeByte a b).chB = s.chB := rfl
@[simp] theorem placeByte_pal (a : Word) (b : Byte) (s : State) : (s.placeByte a b).pal = s.pal := rfl
@[simp] theorem placeByte_out (a : Word) (b : Byte) (s : State) : (s.placeByte a b).out = s.out := rfl
@[simp] theorem placeByte_src (a : Word) (b : Byte) (s : State) : (s.placeByte a b).src = Memory.writeBytes s.src a.toNat [b] := rfl
@[simp] theorem placeByte_palCap (a : Word) (b : Byte) (s : State) : (s.placeByte a b).palCap = s.palCap := rfl
@[simp] theorem placeByte_outCap (a : Word) (b : Byte) (s : State) : (s.placeByte a b).outCap = s.outCap := rfl
@[simp] theorem placeByte_pending (a : Word) (b : Byte) (s : State) : (s.placeByte a b).pending = s.pending := rfl
@[simp] theorem placeByte_replies (a : Word) (b : Byte) (s : State) : (s.placeByte a b).replies = s.replies := rfl

/-! A completed palette copy (R100). -/

@[simp] theorem copyPalette_err (s : State) : (copyPalette s).err = s.err := rfl
@[simp] theorem copyPalette_done (s : State) : (copyPalette s).done = s.done := rfl
@[simp] theorem copyPalette_cfg (s : State) : (copyPalette s).cfg = s.cfg := rfl
@[simp] theorem copyPalette_arg (s : State) : (copyPalette s).arg = s.arg := rfl
@[simp] theorem copyPalette_srcLen (s : State) : (copyPalette s).srcLen = s.srcLen := rfl
@[simp] theorem copyPalette_pos (s : State) : (copyPalette s).pos = BitVec.ofNat 32 (s.pos.toNat + s.palSize.toNat) := rfl
@[simp] theorem copyPalette_fileSize (s : State) : (copyPalette s).fileSize = s.fileSize := rfl
@[simp] theorem copyPalette_dataOffset (s : State) : (copyPalette s).dataOffset = s.dataOffset := rfl
@[simp] theorem copyPalette_width (s : State) : (copyPalette s).width = s.width := rfl
@[simp] theorem copyPalette_height (s : State) : (copyPalette s).height = s.height := rfl
@[simp] theorem copyPalette_palSize (s : State) : (copyPalette s).palSize = s.palSize := rfl
@[simp] theorem copyPalette_palLen (s : State) : (copyPalette s).palLen = s.palSize := rfl
@[simp] theorem copyPalette_outLen (s : State) : (copyPalette s).outLen = s.outLen := rfl
@[simp] theorem copyPalette_outStride (s : State) : (copyPalette s).outStride = s.outStride := rfl
@[simp] theorem copyPalette_chR (s : State) : (copyPalette s).chR = s.chR := rfl
@[simp] theorem copyPalette_chG (s : State) : (copyPalette s).chG = s.chG := rfl
@[simp] theorem copyPalette_chB (s : State) : (copyPalette s).chB = s.chB := rfl
@[simp] theorem copyPalette_pal (s : State) : (copyPalette s).pal = Memory.writeBytes s.pal 0 (s.srcBytes s.pos.toNat s.palSize.toNat) := rfl
@[simp] theorem copyPalette_out (s : State) : (copyPalette s).out = s.out := rfl
@[simp] theorem copyPalette_src (s : State) : (copyPalette s).src = s.src := rfl
@[simp] theorem copyPalette_palCap (s : State) : (copyPalette s).palCap = s.palCap := rfl
@[simp] theorem copyPalette_outCap (s : State) : (copyPalette s).outCap = s.outCap := rfl
@[simp] theorem copyPalette_pending (s : State) : (copyPalette s).pending = s.pending := rfl
@[simp] theorem copyPalette_replies (s : State) : (copyPalette s).replies = s.replies := rfl

/-! A completed UNPACK (R117). -/

@[simp] theorem unpackImage_err (s : State) : (unpackImage s).err = s.err := rfl
@[simp] theorem unpackImage_done (s : State) : (unpackImage s).done = true := rfl
@[simp] theorem unpackImage_cfg (s : State) : (unpackImage s).cfg = s.cfg := rfl
@[simp] theorem unpackImage_arg (s : State) : (unpackImage s).arg = s.arg := rfl
@[simp] theorem unpackImage_srcLen (s : State) : (unpackImage s).srcLen = s.srcLen := rfl
@[simp] theorem unpackImage_pos (s : State) : (unpackImage s).pos = BitVec.ofNat 32 (s.rowCursor s.height.toNat) := rfl
@[simp] theorem unpackImage_fileSize (s : State) : (unpackImage s).fileSize = s.fileSize := rfl
@[simp] theorem unpackImage_dataOffset (s : State) : (unpackImage s).dataOffset = s.dataOffset := rfl
@[simp] theorem unpackImage_width (s : State) : (unpackImage s).width = s.width := rfl
@[simp] theorem unpackImage_height (s : State) : (unpackImage s).height = s.height := rfl
@[simp] theorem unpackImage_palSize (s : State) : (unpackImage s).palSize = s.palSize := rfl
@[simp] theorem unpackImage_palLen (s : State) : (unpackImage s).palLen = 0#32 := rfl
@[simp] theorem unpackImage_outLen (s : State) : (unpackImage s).outLen = BitVec.ofNat 32 (4 * s.width.toNat * s.height.toNat) := rfl
@[simp] theorem unpackImage_outStride (s : State) : (unpackImage s).outStride = BitVec.ofNat 32 (4 * s.width.toNat) := rfl
@[simp] theorem unpackImage_chR (s : State) : (unpackImage s).chR = s.chR := rfl
@[simp] theorem unpackImage_chG (s : State) : (unpackImage s).chG = s.chG := rfl
@[simp] theorem unpackImage_chB (s : State) : (unpackImage s).chB = s.chB := rfl
@[simp] theorem unpackImage_pal (s : State) : (unpackImage s).pal = s.pal := rfl
@[simp] theorem unpackImage_out (s : State) : (unpackImage s).out = Memory.writeBytes s.out 0 s.imageBytes := rfl
@[simp] theorem unpackImage_src (s : State) : (unpackImage s).src = s.src := rfl
@[simp] theorem unpackImage_palCap (s : State) : (unpackImage s).palCap = s.palCap := rfl
@[simp] theorem unpackImage_outCap (s : State) : (unpackImage s).outCap = s.outCap := rfl
@[simp] theorem unpackImage_pending (s : State) : (unpackImage s).pending = s.pending := rfl
@[simp] theorem unpackImage_replies (s : State) : (unpackImage s).replies = s.replies := rfl

/-! A command issued next (R22). -/

@[simp] theorem issueCommand_err (w : Word) (s : State) : (issueCommand w s).err = s.err := rfl
@[simp] theorem issueCommand_done (w : Word) (s : State) : (issueCommand w s).done = s.done := rfl
@[simp] theorem issueCommand_cfg (w : Word) (s : State) : (issueCommand w s).cfg = s.cfg := rfl
@[simp] theorem issueCommand_arg (w : Word) (s : State) : (issueCommand w s).arg = s.arg := rfl
@[simp] theorem issueCommand_srcLen (w : Word) (s : State) : (issueCommand w s).srcLen = s.srcLen := rfl
@[simp] theorem issueCommand_pos (w : Word) (s : State) : (issueCommand w s).pos = s.pos := rfl
@[simp] theorem issueCommand_fileSize (w : Word) (s : State) : (issueCommand w s).fileSize = s.fileSize := rfl
@[simp] theorem issueCommand_dataOffset (w : Word) (s : State) : (issueCommand w s).dataOffset = s.dataOffset := rfl
@[simp] theorem issueCommand_width (w : Word) (s : State) : (issueCommand w s).width = s.width := rfl
@[simp] theorem issueCommand_height (w : Word) (s : State) : (issueCommand w s).height = s.height := rfl
@[simp] theorem issueCommand_palSize (w : Word) (s : State) : (issueCommand w s).palSize = s.palSize := rfl
@[simp] theorem issueCommand_palLen (w : Word) (s : State) : (issueCommand w s).palLen = s.palLen := rfl
@[simp] theorem issueCommand_outLen (w : Word) (s : State) : (issueCommand w s).outLen = s.outLen := rfl
@[simp] theorem issueCommand_outStride (w : Word) (s : State) : (issueCommand w s).outStride = s.outStride := rfl
@[simp] theorem issueCommand_chR (w : Word) (s : State) : (issueCommand w s).chR = s.chR := rfl
@[simp] theorem issueCommand_chG (w : Word) (s : State) : (issueCommand w s).chG = s.chG := rfl
@[simp] theorem issueCommand_chB (w : Word) (s : State) : (issueCommand w s).chB = s.chB := rfl
@[simp] theorem issueCommand_pal (w : Word) (s : State) : (issueCommand w s).pal = s.pal := rfl
@[simp] theorem issueCommand_out (w : Word) (s : State) : (issueCommand w s).out = s.out := rfl
@[simp] theorem issueCommand_src (w : Word) (s : State) : (issueCommand w s).src = s.src := rfl
@[simp] theorem issueCommand_palCap (w : Word) (s : State) : (issueCommand w s).palCap = s.palCap := rfl
@[simp] theorem issueCommand_outCap (w : Word) (s : State) : (issueCommand w s).outCap = s.outCap := rfl
@[simp] theorem issueCommand_pending (w : Word) (s : State) : (issueCommand w s).pending = HostEvent.issue (.wr 0 w) :: s.pending := rfl
@[simp] theorem issueCommand_replies (w : Word) (s : State) : (issueCommand w s).replies = s.replies := rfl

/-! A whole channel record written (R36): the selected record, and nothing else. -/

@[simp] theorem setChannel_err (c : BitVec 2) (r : ChannelRecord) (s : State) :
    (s.setChannel c r).err = s.err := by unfold State.setChannel; split_ifs <;> rfl
@[simp] theorem setChannel_done (c : BitVec 2) (r : ChannelRecord) (s : State) :
    (s.setChannel c r).done = s.done := by unfold State.setChannel; split_ifs <;> rfl
@[simp] theorem setChannel_cfg (c : BitVec 2) (r : ChannelRecord) (s : State) :
    (s.setChannel c r).cfg = s.cfg := by unfold State.setChannel; split_ifs <;> rfl
@[simp] theorem setChannel_arg (c : BitVec 2) (r : ChannelRecord) (s : State) :
    (s.setChannel c r).arg = s.arg := by unfold State.setChannel; split_ifs <;> rfl
@[simp] theorem setChannel_srcLen (c : BitVec 2) (r : ChannelRecord) (s : State) :
    (s.setChannel c r).srcLen = s.srcLen := by unfold State.setChannel; split_ifs <;> rfl
@[simp] theorem setChannel_pos (c : BitVec 2) (r : ChannelRecord) (s : State) :
    (s.setChannel c r).pos = s.pos := by unfold State.setChannel; split_ifs <;> rfl
@[simp] theorem setChannel_fileSize (c : BitVec 2) (r : ChannelRecord) (s : State) :
    (s.setChannel c r).fileSize = s.fileSize := by unfold State.setChannel; split_ifs <;> rfl
@[simp] theorem setChannel_dataOffset (c : BitVec 2) (r : ChannelRecord) (s : State) :
    (s.setChannel c r).dataOffset = s.dataOffset := by unfold State.setChannel; split_ifs <;> rfl
@[simp] theorem setChannel_width (c : BitVec 2) (r : ChannelRecord) (s : State) :
    (s.setChannel c r).width = s.width := by unfold State.setChannel; split_ifs <;> rfl
@[simp] theorem setChannel_height (c : BitVec 2) (r : ChannelRecord) (s : State) :
    (s.setChannel c r).height = s.height := by unfold State.setChannel; split_ifs <;> rfl
@[simp] theorem setChannel_palSize (c : BitVec 2) (r : ChannelRecord) (s : State) :
    (s.setChannel c r).palSize = s.palSize := by unfold State.setChannel; split_ifs <;> rfl
@[simp] theorem setChannel_palLen (c : BitVec 2) (r : ChannelRecord) (s : State) :
    (s.setChannel c r).palLen = s.palLen := by unfold State.setChannel; split_ifs <;> rfl
@[simp] theorem setChannel_outLen (c : BitVec 2) (r : ChannelRecord) (s : State) :
    (s.setChannel c r).outLen = s.outLen := by unfold State.setChannel; split_ifs <;> rfl
@[simp] theorem setChannel_outStride (c : BitVec 2) (r : ChannelRecord) (s : State) :
    (s.setChannel c r).outStride = s.outStride := by unfold State.setChannel; split_ifs <;> rfl
@[simp] theorem setChannel_chR (c : BitVec 2) (r : ChannelRecord) (s : State) :
    (s.setChannel c r).chR = if c = 0#2 then r else s.chR := by
  unfold State.setChannel; split_ifs <;> simp_all
@[simp] theorem setChannel_chG (c : BitVec 2) (r : ChannelRecord) (s : State) :
    (s.setChannel c r).chG = if c = 1#2 then r else s.chG := by
  unfold State.setChannel; split_ifs <;> simp_all
@[simp] theorem setChannel_chB (c : BitVec 2) (r : ChannelRecord) (s : State) :
    (s.setChannel c r).chB = if c = 2#2 then r else s.chB := by
  unfold State.setChannel; split_ifs <;> simp_all
@[simp] theorem setChannel_pal (c : BitVec 2) (r : ChannelRecord) (s : State) :
    (s.setChannel c r).pal = s.pal := by unfold State.setChannel; split_ifs <;> rfl
@[simp] theorem setChannel_out (c : BitVec 2) (r : ChannelRecord) (s : State) :
    (s.setChannel c r).out = s.out := by unfold State.setChannel; split_ifs <;> rfl
@[simp] theorem setChannel_src (c : BitVec 2) (r : ChannelRecord) (s : State) :
    (s.setChannel c r).src = s.src := by unfold State.setChannel; split_ifs <;> rfl
@[simp] theorem setChannel_palCap (c : BitVec 2) (r : ChannelRecord) (s : State) :
    (s.setChannel c r).palCap = s.palCap := by unfold State.setChannel; split_ifs <;> rfl
@[simp] theorem setChannel_outCap (c : BitVec 2) (r : ChannelRecord) (s : State) :
    (s.setChannel c r).outCap = s.outCap := by unfold State.setChannel; split_ifs <;> rfl
@[simp] theorem setChannel_pending (c : BitVec 2) (r : ChannelRecord) (s : State) :
    (s.setChannel c r).pending = s.pending := by unfold State.setChannel; split_ifs <;> rfl
@[simp] theorem setChannel_replies (c : BitVec 2) (r : ChannelRecord) (s : State) :
    (s.setChannel c r).replies = s.replies := by unfold State.setChannel; split_ifs <;> rfl

end Sys2Proof.Machine
end

