-- ==== Sys2Proof/Laws/Ops.lean ====
section
/-! SUPPORT. What the shared operations and the meanings can do, each said once. -/

namespace Sys2Proof.Machine

@[simp] theorem faulted_eq (s : State) : s.faulted = s.err.isSome := rfl

@[simp] theorem State.srcBytes_length (s : State) (a n : Nat) : (s.srcBytes a n).length = n := by
  simp [State.srcBytes]

theorem State.srcBytes_getElem? (s : State) (a : Nat) {n k : Nat} (hk : k < n) :
    (s.srcBytes a n)[k]? = some (s.srcByte (a + k)) := by
  simp [State.srcBytes, hk]

/-- The cursor read fails exactly when fewer than four bytes remain (R92). -/
theorem readU32LE_short {s : State} (h : s.srcLen.toNat < s.pos.toNat + 4) : readU32LE s = .error .ioError := by
  unfold readU32LE; rw [if_pos h]

/-- Otherwise it gives the little-endian word at the cursor and advances the cursor by four (R92). -/
theorem readU32LE_fits {s : State} (h : s.pos.toNat + 4 ≤ s.srcLen.toNat) :
    readU32LE s = .ok
      (leWord (s.srcByte s.pos.toNat) (s.srcByte (s.pos.toNat + 1)) (s.srcByte (s.pos.toNat + 2))
        (s.srcByte (s.pos.toNat + 3)),
       { s with pos := BitVec.ofNat 32 (s.pos.toNat + 4) }) := by
  unfold readU32LE; rw [if_neg (by omega)]

/-- The little-endian word does not wrap (R51, R92). -/
theorem leWord_toNat (b0 b1 b2 b3 : Byte) :
    (leWord b0 b1 b2 b3).toNat = b0.toNat + 2 ^ 8 * b1.toNat + 2 ^ 16 * b2.toNat + 2 ^ 24 * b3.toNat := by
  have h0 := b0.isLt
  have h1 := b1.isLt
  have h2 := b2.isLt
  have h3 := b3.isLt
  rw [leWord, BitVec.toNat_ofNat, Nat.mod_eq_of_lt (by omega)]

/-- A record that ANALYZE or LDMASK writes satisfies the channel invariant (R94). -/
@[simp] theorem recordOf_mask (v : Word) : (recordOf v).mask = v := rfl

theorem resetRecord_eq : resetRecord = recordOf 0#32 := by decide

/-- What a copying LDPAL has checked (R100). -/
theorem paletteFailure_none {s : State} (h : paletteFailure s = none) :
    s.palSize.toNat ≤ s.palCap ∧ s.pos.toNat + s.palSize.toNat ≤ s.srcLen.toNat := by
  unfold paletteFailure at h
  split_ifs at h; omega

/-- What an UNPACK that decodes has checked (R110). -/
theorem unpackFailure_none {s : State} (h : unpackFailure s = none) :
    s.bpp = 1#16 ∧ s.comp = 0#2 ∧ s.height ≠ 0#32 ∧ s.dataOffset.toNat ≤ s.fileSize.toNat ∧
    s.width.toNat ≤ 8 * s.declaredRow ∧ (s.palPresent = true → 2 * s.elementSize ≤ s.palLen.toNat) ∧
    4 * s.width.toNat * s.height.toNat ≤ s.outCap ∧
    (0 < s.width.toNat → s.rowCursor (s.height.toNat - 1) + ceil8 s.width.toNat ≤ s.srcLen.toNat) := by
  unfold unpackFailure at h
  split_ifs at h with h1 h2 h3 h4 h5 h6 h7
  refine ⟨by_contra fun hc => h1 (.inl hc), by_contra fun hc => h1 (.inr hc), h2, by omega, by omega,
    fun hp => ?_, by omega, fun hw => ?_⟩
  · by_contra hc
    exact h5 ⟨hp, by omega⟩
  · by_contra hc
    exact h7 ⟨hw, by omega⟩

end Sys2Proof.Machine
end

