-- ==== Sys2Proof/Laws/PerInstr.lean ====
section
/-! SUPPORT. Statements made of every command, one lemma a constructor. -/

/-- The word of a command holds its operation code in `OP`, its channel in `CH` and 0 in `RSV` (R71, R72). -/
def Sys2Proof.Laws.EncodedFields.Statement (i : Sys2Proof.Instr) : Prop :=
  Sys2Proof.opField (Sys2Proof.encode i) = Sys2Proof.opcode i ∧
  Sys2Proof.chField (Sys2Proof.encode i) = Sys2Proof.channelOf i ∧
  Sys2Proof.rsvField (Sys2Proof.encode i) = 0#22

namespace Sys2Proof.Laws.EncodedFields

theorem nop : Statement .nop := by simp [Statement, encode]

theorem init : Statement .init := by simp [Statement, encode]

theorem analyze (ch : BitVec 2) : Statement (.analyze ch) := by simp [Statement, encode]

theorem ldmask (ch : BitVec 2) : Statement (.ldmask ch) := by simp [Statement, encode]

theorem ldpal : Statement .ldpal := by simp [Statement, encode]

theorem unpack : Statement .unpack := by simp [Statement, encode]

end Sys2Proof.Laws.EncodedFields
end

