-- ==== Sys2Proof/Laws/Step.lean ====
section
/-! SUPPORT. Everything a step can do, said once: `step_effect`. Invariants follow by cases on `Effect`. -/

namespace Sys2Proof.Machine

/-- What serving one host event can make of a state. Every command's effect needs `ERR` = 0 but that of `INIT` (R135). -/
inductive Effect (s : State) : State → Prop where
  | same : Effect s s
  | reply (r : Reply) : Effect s (s.addReply r)
  | place (a : Word) (b : Byte) : Effect s (s.placeByte a b)
  | init : Effect s s.initRegs
  | storeCfg (v : Word) : Effect s { s with cfg := v &&& cfgMask }
  | storeArg (v : Word) : Effect s { s with arg := v }
  | storeSrcLen (v : Word) : Effect s { s with srcLen := v }
  | storePos (v : Word) : Effect s { s with pos := v }
  | storeFileSize (v : Word) : Effect s { s with fileSize := v }
  | storeDataOffset (v : Word) : Effect s { s with dataOffset := v }
  | storeWidth (v : Word) : Effect s { s with width := v }
  | storeHeight (v : Word) : Effect s { s with height := v }
  | storePalSize (v : Word) : Effect s { s with palSize := v }
  | failed (c : FailCode) (h : s.err = none) : Effect s (s.fail c)
  | analyzed (c : BitVec 2) (h : s.err = none) : Effect s (s.setChannel c (recordOf s.arg))
  | maskLoaded (c : BitVec 2) (h : s.err = none) (v : Word) (u : State) (hr : readU32LE s = .ok (v, u)) :
      Effect s (u.setChannel c (recordOf v))
  | paletteCopied (h : s.err = none) (hc : s.copiesPalette = true) (hf : paletteFailure s = none) :
      Effect s (copyPalette s)
  | paletteDropped (h : s.err = none) (hc : s.copiesPalette = false) : Effect s { s with palLen := 0#32 }
  | unpacked (h : s.err = none) (hf : unpackFailure s = none) : Effect s (unpackImage s)

/-- Carrying out a command in a block that is not faulted. -/
theorem exec_effect {i : Instr} {s t : State} (he : s.err = none) (h : exec i s = .next t) : Effect s t := by
  cases i with
  | nop => injection h with h; subst h; exact .same
  | init => injection h with h; subst h; exact .init
  | analyze ch =>
    simp only [exec, execAnalyze] at h
    split_ifs at h <;> injection h with h <;> subst h
    · exact .failed _ he
    · exact .analyzed _ he
  | ldmask ch =>
    simp only [exec, execLdmask] at h
    split_ifs at h
    · injection h with h; subst h; exact .failed _ he
    · split at h <;> injection h with h <;> subst h
      · exact .failed _ he
      · exact .maskLoaded _ he _ _ ‹_›
  | ldpal =>
    simp only [exec, execLdpal] at h
    split_ifs at h with hc
    · split at h <;> injection h with h <;> subst h
      · exact .failed _ he
      · exact .paletteCopied he hc ‹_›
    · injection h with h; subst h; exact .paletteDropped he (by simpa using hc)
  | unpack =>
    simp only [exec, execUnpack] at h
    split at h <;> injection h with h <;> subst h
    · exact .failed _ he
    · exact .unpacked he ‹_›

/-- A write of `w` to `CMD` (R135). -/
theorem acceptCommand_effect {w : Word} {s t : State} (h : acceptCommand w s = .next t) : Effect s t := by
  unfold acceptCommand at h
  cases he : s.err with
  | some c =>
    simp only [faulted_eq, he, Option.isSome_some, if_true] at h
    split_ifs at h <;> injection h with h <;> subst h
    · exact .init
    · exact .same
  | none =>
    simp only [faulted_eq, he, Option.isSome_none, Bool.false_eq_true, if_false] at h
    split at h
    · injection h with h; subst h; exact .failed _ he
    · exact exec_effect he h

theorem performEvent_effect {e : HostEvent} {s t : State} (h : performEvent e s = .next t) : Effect s t := by
  cases e with
  | hardReset => injection h with h; subst h; exact .init
  | placeSrc a b => injection h with h; subst h; exact .place a b
  | issue x =>
    cases x with
    | rd off => injection h with h; subst h; exact .reply _
    | outrd addr => injection h with h; subst h; exact .reply _
    | wr off data =>
      simp only [performEvent, transact, hostWrite] at h
      split at h
      · injection h with h; subst h; exact .same
      · rename_i r _
        cases r with
        | cmd => exact acceptCommand_effect h
        | _ => injection h with h; subst h; constructor

/-- Everything a step can do: nothing when no event is pending, else one effect on the state without that event. -/
theorem step_effect {s t : State} (h : step s = .next t) :
    (s.pending = [] ∧ t = s) ∨ ∃ e rest, s.pending = e :: rest ∧ Effect { s with pending := rest } t := by
  unfold step serveNext at h
  split at h
  · injection h with h; exact .inl ⟨‹_›, h.symm⟩
  · exact .inr ⟨_, _, ‹_›, performEvent_effect h⟩

/-- A step serves the first pending event on the state without it (R56). -/
theorem step_event {s : State} {e : HostEvent} {rest : List HostEvent} (h : s.pending = e :: rest) :
    step s = performEvent e { s with pending := rest } := by
  simp [step, serveNext, h]

/-- A run of `n + 1` steps is one step and then a run of `n`. -/
theorem run_succ {s t : State} (n : Nat) (h : step s = .next t) :
    run (n + 1) s = run n t := by
  rw [run, h]

theorem run_zero (s : State) : run 0 s = .next s := rfl

/-- `run` is the host's own run of this machine. -/
theorem run_eq_core (n : Nat) (s : State) : run n s = Host.Core.run Sys2Proof.core n s := by
  induction n generalizing s with
  | zero => rfl
  | succ n ih =>
    cases h : step s with
    | next t =>
      have hcore : Sys2Proof.core.step s = .next t := h
      rw [run_succ n h, ih t]
      simp only [Host.Core.run, hcore]
      rfl
    | fault r => cases r
    | refused r =>
      have hcore : Sys2Proof.core.step s = .refused r := h
      simp only [run, Host.Core.run, h, hcore]
      rfl

/-- Carrying out a legal command in a block that is not faulted (R135). -/
theorem acceptCommand_legal {s : State} {w : Word} {i : Instr} (he : s.err = none) (hd : decode w = .ok i) :
    acceptCommand w s = exec i s := by
  unfold acceptCommand
  simp [he, hd]

/-- The cursor read moves the cursor and changes nothing else (R92). -/
theorem readU32LE_frame {s u : State} {v : Word} (h : readU32LE s = .ok (v, u)) : u = { s with pos := u.pos } := by
  unfold readU32LE at h
  split_ifs at h
  injection h with h
  injection h with _ h
  rw [← h]

end Sys2Proof.Machine
end

