-- ==== Sys2Proof/Laws/Unpack.lean ====
section
/-! SUPPORT. Where each pixel's bytes stand in the image that UNPACK writes (R113, R116). -/

namespace Sys2Proof.Machine

/-- A list of equal-length pieces, one for each number below `n`, has `n` times their length. -/
theorem length_flatMap_range {α : Type} {f : Nat → List α} {k : Nat} (hf : ∀ i, (f i).length = k) (n : Nat) :
    ((List.range n).flatMap f).length = n * k := by
  induction n with
  | zero => simp
  | succ n ih => rw [List.range_succ, List.flatMap_append, List.length_append, ih]; simp [hf]; ring

/-- Element `r` of piece `i` stands at `i * k + r`. -/
theorem getElem?_flatMap_range {α : Type} {f : Nat → List α} {k : Nat} (hf : ∀ i, (f i).length = k)
    {n i r : Nat} (hi : i < n) (hr : r < k) :
    ((List.range n).flatMap f)[i * k + r]? = (f i)[r]? := by
  induction n with
  | zero => omega
  | succ n ih =>
    rw [List.range_succ, List.flatMap_append]
    have hlen := length_flatMap_range hf n
    by_cases hlast : i = n
    · subst hlast
      rw [List.getElem?_append_right (by omega), hlen, Nat.add_sub_cancel_left]
      simp
    · have hi' : i < n := by omega
      have hlt : i * k + r < n * k := by
        have : (i + 1) * k ≤ n * k := Nat.mul_le_mul_right k (by omega)
        have hs : (i + 1) * k = i * k + k := by ring
        omega
      rw [List.getElem?_append_left (by omega), ih hi']

@[simp] theorem State.pixelBytes_length (s : State) (b : Bool) : (s.pixelBytes b).length = 4 := by
  unfold State.pixelBytes; split <;> rfl

@[simp] theorem State.rowBytes_length (s : State) (i : Nat) : (s.rowBytes i).length = s.width.toNat * 4 :=
  length_flatMap_range (fun _ => s.pixelBytes_length _) _

@[simp] theorem State.imageBytes_length (s : State) :
    s.imageBytes.length = s.height.toNat * (s.width.toNat * 4) :=
  length_flatMap_range s.rowBytes_length _

/-- Byte `k` of the pixel in row `i`, column `j` stands at `4·(i·W + j) + k` (R116). -/
theorem State.imageBytes_getElem? (s : State) {i j k : Nat} (hi : i < s.height.toNat) (hj : j < s.width.toNat)
    (hk : k < 4) :
    s.imageBytes[4 * (i * s.width.toNat + j) + k]? = (s.pixelBytes (s.pixelBit (s.rowCursor i) j))[k]? := by
  have hrow : j * 4 + k < s.width.toNat * 4 := by omega
  have hpos : 4 * (i * s.width.toNat + j) + k = i * (s.width.toNat * 4) + (j * 4 + k) := by ring
  rw [hpos, State.imageBytes, getElem?_flatMap_range s.rowBytes_length hi hrow, State.rowBytes,
    getElem?_flatMap_range (fun _ => s.pixelBytes_length _) hj hk]

end Sys2Proof.Machine
end

