-- ==== Sys2Proof/Tests/Slice0.lean ====
section
/-! SUPPORT. Tests with expected results from the spec (95_test_vectors.md unless another file is named), and for every
obligation with hypotheses a witness that meets them. -/

namespace Sys2Proof.Tests

open Sys2Proof Sys2Proof.Machine

/-! ### Small states -/

/-- The reset state with the parameters of 00_scope.md R6's examples. -/
def blank : State := { State.reset with palCap := 1024, outCap := 65536 }

/-- `SRC` holding `bs` from address `a`. -/
def withSrc (a : Nat) (bs : List Byte) (s : State) : State := { s with src := Memory.cellsFrom a bs }

/-- The host has issued `es`. -/
def withEvents (es : List HostEvent) (s : State) : State := { s with pending := es }

/-- The state an outcome answers. -/
def after (o : Host.Outcome State Fault Refusal) : State :=
  match o with
  | .next t => t
  | .fault _ => State.reset
  | .refused _ => State.reset

/-- The first `n` bytes of `OUT`. -/
def outPrefix (n : Nat) (s : State) : List Byte := (List.range n).map s.outByte

/-- The data of the first `n` steps' reads. -/
def repliesAfter (n : Nat) (s : State) : List Reply := (after (Sys2Proof.Machine.run n s)).replies

/-- A block that has failed with `IO_ERROR`. -/
def failedBlock : State := { blank with err := some .ioError, arg := 0xF800#32 }

/-- X1: one row of eight pixels, `A5`. -/
def oneRow : State :=
  withSrc 0 [0xA5#8] { blank with cfg := 1#32, fileSize := 1#32, width := 8#32, height := 1#32, srcLen := 1#32 }

/-- X2: nine pixels a row, two rows of four bytes. -/
def paddedRows : State :=
  withSrc 0 [0xFF#8, 0x80#8, 0xEE#8, 0xEE#8, 0x00#8, 0x80#8, 0xEE#8, 0xEE#8]
    { blank with cfg := 1#32, fileSize := 8#32, width := 9#32, height := 2#32, srcLen := 8#32 }

/-- S4: the pixel part of the document's 2 by 2 file, at its address. -/
def twoByTwo : State :=
  withSrc 32 [0x40#8, 0#8, 0#8, 0#8, 0x80#8, 0#8, 0#8, 0#8]
    { blank with
      cfg := 1#32, fileSize := 40#32, dataOffset := 32#32, width := 2#32, height := 2#32, srcLen := 40#32 }

/-- X10, before LDPAL: two four-byte entries and the pixel byte `50`. -/
def paletteImage : State :=
  withSrc 0 [0x10#8, 0x20#8, 0x30#8, 0x77#8, 0xA0#8, 0xB0#8, 0xC0#8, 0x88#8, 0x50#8]
    { blank with
      cfg := 0x01000001#32, fileSize := 9#32, dataOffset := 8#32, width := 4#32, height := 1#32, palSize := 8#32,
      srcLen := 9#32 }

/-- X10, after LDPAL. -/
def paletteLoaded : State := after (exec .ldpal paletteImage)

/-- L1: `SRC[54..61]` and the registers of L1. -/
def paletteSource : State :=
  withSrc 54 [0x76#8, 0x77#8, 0x78#8, 0x79#8, 0x7A#8, 0x7B#8, 0x7C#8, 0x7D#8]
    { blank with cfg := 0x01000001#32, palSize := 8#32, pos := 54#32, srcLen := 70#32 }

/-- M2: four bytes at the cursor. -/
def maskSource : State := withSrc 0 [0x78#8, 0x56#8, 0x34#8, 0x12#8] { blank with srcLen := 4#32 }

/-! ### Well-formedness, decoding and encoding (30_encoding.md R71 to R76) -/

theorem test_wellFormed_refuses_analyze_three : (Instr.analyze 3#2).wellFormed = false := by decide

theorem test_wellFormed_refuses_ldmask_three : (Instr.ldmask 3#2).wellFormed = false := by decide

theorem test_wellFormed_accepts_channels :
    ∀ c ∈ [0#2, 1#2, 2#2], (Instr.analyze c).wellFormed = true ∧ (Instr.ldmask c).wellFormed = true := by decide

theorem test_decode_nop : decode 0b00000000000000000000000000000000#32 = .ok .nop := by decide

theorem test_decode_init : decode 0b00000000000000000000000000000001#32 = .ok .init := by decide

theorem test_decode_analyze :
    decode 0b00000000000000000000000000000010#32 = .ok (.analyze 0#2) ∧
    decode 0b00000000000000000000000100000010#32 = .ok (.analyze 1#2) ∧
    decode 0b00000000000000000000001000000010#32 = .ok (.analyze 2#2) := by decide

theorem test_decode_ldmask :
    decode 0b00000000000000000000000000000011#32 = .ok (.ldmask 0#2) ∧
    decode 0b00000000000000000000000100000011#32 = .ok (.ldmask 1#2) ∧
    decode 0b00000000000000000000001000000011#32 = .ok (.ldmask 2#2) := by decide

theorem test_decode_ldpal : decode 0b00000000000000000000000000000100#32 = .ok .ldpal := by decide

theorem test_decode_unpack : decode 0b00000000000000000000000000000101#32 = .ok .unpack := by decide

/-- K1: the illegal words, with their reasons. -/
theorem test_decode_illegal :
    decode 0x00000006#32 = .error .unknownOp ∧ decode 0x000000FF#32 = .error .unknownOp ∧
    decode 0x00000302#32 = .error .channelThree ∧ decode 0x00000303#32 = .error .channelThree ∧
    decode 0x00000100#32 = .error .channelNotZero ∧ decode 0x00000101#32 = .error .channelNotZero ∧
    decode 0x00000104#32 = .error .channelNotZero ∧ decode 0x00000205#32 = .error .channelNotZero ∧
    decode 0x00000400#32 = .error .reservedBits ∧ decode 0x00010005#32 = .error .reservedBits ∧
    decode 0x80000005#32 = .error .reservedBits ∧ decode 0xFFFFFFFF#32 = .error .reservedBits := by decide

theorem test_encode_words :
    encode .nop = 0x00000000#32 ∧ encode .init = 0x00000001#32 ∧ encode (.analyze 1#2) = 0x00000102#32 ∧
    encode (.ldmask 2#2) = 0x00000203#32 ∧ encode .ldpal = 0x00000004#32 ∧ encode .unpack = 0x00000005#32 := by decide

/-- A register has the offset of R21 exactly where `regAt` finds it. -/
theorem test_regAt_offset :
    ∀ r ∈ [Reg.cmd, .status, .cfg, .arg, .srcLen, .pos, .fileSize, .dataOffset, .width, .height, .palSize, .palLen,
      .outLen, .outStride, .maskR, .lowbitR, .rangeR, .maskG, .lowbitG, .rangeG, .maskB, .lowbitB, .rangeB],
      regAt r.offset = some r := by decide

/-! ### Commands -/

/-- Section 2.1, rows A1, A6, A8, A9, A16. -/
theorem test_analyze_function :
    analyze 0x0000F800#32 = (11#32, 31#32) ∧ analyze 0x80000000#32 = (31#32, 1#32) ∧
    analyze 0xFFFFFFFF#32 = (0#32, 0xFFFFFFFF#32) ∧ analyze 0#32 = (0#32, 255#32) ∧
    analyze 0x12345678#32 = (3#32, 0x03FFFFFF#32) := by decide

/-- P1, row 3. -/
theorem test_analyze_green :
    (after (exec (.analyze 1#2) { blank with arg := 0x7E0#32 })).chG = ⟨0x7E0#32, 5#32, 63#32⟩ := by decide

/-- M2. -/
theorem test_ldmask_exact_fit :
    (after (exec (.ldmask 2#2) maskSource)).chB = ⟨0x12345678#32, 3#32, 0x03FFFFFF#32⟩ ∧
    (after (exec (.ldmask 2#2) maskSource)).pos = 4#32 := by decide

/-- M4: no wrap in the bound test. -/
theorem test_ldmask_no_wrap :
    let t := after (exec (.ldmask 0#2) { blank with srcLen := 0xFFFFFFFF#32, pos := 0xFFFFFFFE#32 })
    t.err = some .ioError ∧ t.pos = 0xFFFFFFFE#32 := by decide

/-- L1. -/
theorem test_ldpal_copies :
    let t := after (exec .ldpal paletteSource)
    (List.range 8).map t.palByte = [0x76#8, 0x77#8, 0x78#8, 0x79#8, 0x7A#8, 0x7B#8, 0x7C#8, 0x7D#8] ∧
    t.pos = 62#32 ∧ t.statusWord = 0x10#32 := by decide

/-- L3b and L4: capacity first, then length. -/
theorem test_ldpal_failures :
    (after (exec .ldpal { paletteSource with palCap := 8, palSize := 9#32 })).err = some .outOfMemory ∧
    (after (exec .ldpal { paletteSource with palSize := 17#32 })).err = some .fileInvalid ∧
    (after (exec .ldpal { paletteSource with cfg := 0x03000001#32 })).palLen = 0#32 := by decide

/-- X1: bits 1010 0101, most significant first. -/
theorem test_unpack_one_row :
    let t := after (exec .unpack oneRow)
    (outPrefix 32 t).map (·.toNat) =
      [255, 255, 255, 255, 0, 0, 0, 255, 255, 255, 255, 255, 0, 0, 0, 255,
       0, 0, 0, 255, 255, 255, 255, 255, 0, 0, 0, 255, 255, 255, 255, 255] ∧
    t.pos = 1#32 ∧ t.statusWord = 8#32 := by decide

/-- X10 and X12: the palette path with four-byte and with three-byte entries. -/
theorem test_unpack_palette :
    outPrefix 8 (after (exec .unpack paletteLoaded)) =
      [0x30#8, 0x20#8, 0x10#8, 0xFF#8, 0xC0#8, 0xB0#8, 0xA0#8, 0xFF#8] ∧
    outPrefix 8 (after (exec .unpack { paletteLoaded with cfg := 1#32 })) =
      [0x30#8, 0x20#8, 0x10#8, 0xFF#8, 0xB0#8, 0xA0#8, 0x77#8, 0xFF#8] := by decide

/-- X2: an odd padding; pixel 8 of row 1 is bit 7 of the row's second byte. -/
theorem test_unpack_odd_padding :
    let t := after (exec .unpack paddedRows)
    t.outByte 32 = 0xFF#8 ∧ t.outByte 36 = 0x00#8 ∧ t.outByte 68 = 0xFF#8 ∧ t.outStride = 36#32 ∧ t.pos = 8#32 := by
  decide

/-- S4: the document's 2 by 2 image, in storage order. -/
theorem test_unpack_document_example :
    (outPrefix 16 (after (exec .unpack twoByTwo))).map (·.toNat) =
      [0, 0, 0, 255, 255, 255, 255, 255, 255, 255, 255, 255, 0, 0, 0, 255] := by decide

/-- X14, X32 and X35: checks 5, 6 and 7. -/
theorem test_unpack_failures :
    (after (exec .unpack { paletteLoaded with palLen := 4#32 })).err = some .fileInvalid ∧
    (after (exec .unpack
      { blank with cfg := 1#32, width := 0x10000#32, height := 0x10000#32, fileSize := 0x20000000#32 })).err =
        some .outOfMemory ∧
    (after (exec .unpack { twoByTwo with srcLen := 36#32 })).err = some .ioError ∧
    (after (exec .unpack { twoByTwo with srcLen := 37#32 })).err = none := by decide

/-- K3, steps 2, 3 and 6: a failed block ignores every word but INIT's. -/
theorem test_gating :
    after (step (withEvents [asmCmd (.analyze 0#2)] failedBlock)) = failedBlock ∧
    (after (step (withEvents [asmWr .cmd 0x999#32] failedBlock))).err = some .ioError ∧
    (after (step (withEvents [asmCmd .init] failedBlock))).arg = 0#32 := by decide

/-! ### Access -/

/-- K2: writes and reads of registers. -/
theorem test_register_access :
    repliesAfter 2 (withEvents [asmWr .cfg 0xFFFFFFFF#32, asmRd .cfg] blank) = [.word 0x0303FFFF#32] ∧
    repliesAfter 2 (withEvents [asmWr .palLen 5#32, asmRd .palLen] blank) = [.word 0#32] ∧
    repliesAfter 2 (withEvents [.issue (.rd 0x48), .issue (.rd 0x0A)] blank) = [.word 0xFF#32, .word 0#32] := by decide

/-- K4: the window of OUTRD, and INIT closing it. -/
theorem test_outrd_window :
    repliesAfter 5 (withEvents
      [asmCmd .unpack, .issue (.outrd 31#32), .issue (.outrd 32#32), asmCmd .init, .issue (.outrd 0#32)] oneRow) =
      [.byte 0xFF#8, .byte 0x00#8, .byte 0x00#8] := by decide

/-- R78 and P5, step 3: the word of SETCFG 16, 3, 4, 1. -/
theorem test_setcfg_word : cfgWord 16#16 3#2 true true = 0x03030010#32 := by decide

/-- A command of the opcode table runs as the first one after reset. -/
theorem test_first_command :
    (after (step (State.reset.withFetchWord 32 0x205))).err = some .badCmd ∧
    (after (step (State.reset.withFetchWord 32 0x5))).err = some .fileNotSupported ∧
    decodeTableWord 32 0x202 = some (.analyze 2#2) := by decide

/-! ### Witnesses: states and operands that meet the hypotheses of each obligation -/

/-- A command or a word is the next event of a block that has not failed, or of one that has. -/
theorem witness_InitCommandBeginsNewAttempt :
    (withEvents [asmCmd .init] failedBlock).pending = .issue (.wr 0x00 0x00000001#32) :: [] ∧
    (withEvents [asmCmd .unpack] failedBlock).pending = .issue (.wr 0x00 0x00000005#32) :: [] ∧
    (withEvents [asmCmd .unpack] failedBlock).err ≠ none ∧ 0x00000005#32 ≠ 0x00000001#32 := by decide

theorem witness_HardResetEqualsInit : (withEvents [.hardReset] failedBlock).pending = .hardReset :: [] := by decide

/-- A block after a completed UNPACK meets the invariant. -/
theorem unpacked_stateInv : StateInv (after (exec .unpack oneRow)) := by
  constructor <;> decide

/-- A block with a palette meets the invariant. -/
theorem paletteLoaded_stateInv : StateInv (withEvents [asmCmd .unpack] paletteLoaded) := by
  constructor <;> decide

theorem witness_StepKeepsInvariant :
    ∃ s t : State, StateInv s ∧ step s = .next t ∧ t.done = true :=
  ⟨withEvents [asmCmd .unpack] paletteLoaded, _, paletteLoaded_stateInv, rfl, by decide⟩

theorem witness_StepKeepsMemoriesCanonical :
    ∃ s t : State, MemoriesCanonical s ∧ step s = .next t ∧ t.out ≠ s.out :=
  ⟨withEvents [asmCmd .unpack] paletteLoaded, _, paletteLoaded_stateInv.memories, rfl, by decide⟩

theorem witness_FaultedStatesLeakNothing :
    ∃ s t : State, (s.err ≠ none → s.palLen = 0#32 ∧ s.outLen = 0#32) ∧ step s = .next t ∧ t.err ≠ none ∧
      s.palLen ≠ 0#32 :=
  ⟨withEvents [asmWr .cmd 6#32] paletteLoaded, _, by decide, rfl, by decide, by decide⟩

theorem witness_AnalyzerCommandsKeepChannelInvariant :
    (∃ t, exec (.analyze 1#2) maskSource = .next t ∧ ChannelsAnalyzed maskSource) ∧
    (∃ t, exec (.ldmask 2#2) maskSource = .next t ∧ ChannelsAnalyzed maskSource) :=
  ⟨⟨_, rfl, by decide⟩, ⟨_, rfl, by decide⟩⟩

theorem witness_DoneAndErrNeverTogether :
    ∃ s t : State, ¬ (s.done = true ∧ s.err ≠ none) ∧ step s = .next t ∧ t.err ≠ none :=
  ⟨withEvents [asmWr .cmd 6#32] (after (exec .unpack oneRow)), _, by decide, rfl, by decide⟩

theorem witness_IllegalWordsRaiseBadCmd :
    (withEvents [asmWr .cmd 0x302#32] blank).pending = .issue (.wr 0x00 0x302#32) :: [] ∧ blank.err = none ∧
    (withEvents [asmWr .cmd 0x302#32] failedBlock).pending = .issue (.wr 0x00 0x302#32) :: [] ∧
    failedBlock.err ≠ none ∧ decode 0x302#32 = .error .channelThree := by decide

theorem witness_StepRunsDecodedCommand :
    (withEvents [asmCmd .ldpal] paletteImage).pending = .issue (.wr 0x00 0x00000004#32) :: [] ∧
    paletteImage.err = none ∧ decode 0x00000004#32 = .ok .ldpal ∧ decodeTableWord 32 4 = some .ldpal := by decide

/-- One witness for each of the four clauses. -/
theorem witness_CommandAcceptance :
    (withEvents [asmWr .cmd 1#32] failedBlock).pending = .issue (.wr 0x00 0x00000001#32) :: [] ∧
    (withEvents [asmWr .cmd 0#32] failedBlock).pending = .issue (.wr 0x00 0x00000000#32) :: [] ∧
    failedBlock.err ≠ none ∧
    (withEvents [asmWr .cmd 6#32] blank).pending = .issue (.wr 0x00 0x00000006#32) :: [] ∧
    (withEvents [asmWr .cmd 5#32] blank).pending = .issue (.wr 0x00 0x00000005#32) :: [] ∧
    blank.err = none ∧ decode 6#32 = .error .unknownOp ∧ decode 5#32 = .ok .unpack := by decide

theorem witness_IdleBlockKeepsItsState : blank.pending = [] := by decide

theorem witness_FailureLatchesUntilInit :
    ∃ s t : State, s.err ≠ none ∧ (∀ e ∈ s.pending, clearsFault e = false) ∧
      Sys2Proof.Machine.run 3 s = .next t ∧ s.pending.length = 3 :=
  ⟨withEvents [asmCmd .unpack, asmWr .pos 1#32, .placeSrc 7#32 0xFF#8] failedBlock, _, by decide, by decide, rfl,
    by decide⟩

/-- A write at any offset can be the next event; one offset at each end of each clause, none of which meets another. -/
theorem witness_RegisterWrites :
    (∀ (off : Nat) (v : Word), (withEvents [.issue (.wr off v)] blank).pending = .issue (.wr off v) :: []) ∧
    (∀ off ∈ [0x01, 0x6F, 0x70, 0x1000, 0x38, 0x6C],
      (off % 4 ≠ 0 ∨ 0x70 ≤ off ∨ off ∈ [0x38, 0x3C, 0x4C, 0x5C, 0x6C]) ∧
      off ∉ [0x00, 0x04, 0x08, 0x0C, 0x10, 0x14, 0x18, 0x1C, 0x20, 0x24, 0x28, 0x2C, 0x30, 0x34, 0x40, 0x44, 0x48,
        0x50, 0x54, 0x58, 0x60, 0x64, 0x68]) ∧
    (∀ off ∈ [0x00, 0x04, 0x08, 0x0C, 0x10, 0x14, 0x18, 0x1C, 0x20, 0x24, 0x28, 0x2C, 0x30, 0x34, 0x40, 0x44, 0x48,
        0x50, 0x54, 0x58, 0x60, 0x64, 0x68],
      ¬ (off % 4 ≠ 0 ∨ 0x70 ≤ off ∨ off ∈ [0x38, 0x3C, 0x4C, 0x5C, 0x6C])) :=
  ⟨fun _ _ => rfl, by decide, by decide⟩

/-- A read at any offset can be the next event; the offsets of the records at both ends of their range. -/
theorem witness_RegisterReads :
    (∀ off : Nat, (withEvents [.issue (.rd off)] blank).pending = .issue (.rd off) :: []) ∧
    (0#2 : BitVec 2) ≠ 3#2 ∧ 0x40 = 0x40 + 0x10 * (0#2 : BitVec 2).toNat ∧
    (2#2 : BitVec 2) ≠ 3#2 ∧ 0x68 = 0x48 + 0x10 * (2#2 : BitVec 2).toNat :=
  ⟨fun _ => rfl, by decide, by decide, by decide, by decide⟩

/-- The addresses at the two sides of `OUT_LEN` and of `OUT_CAP`. -/
theorem witness_OutputReads :
    (∀ a : Word, (withEvents [.issue (.outrd a)] (after (exec .unpack oneRow))).pending = .issue (.outrd a) :: []) ∧
    (31#32).toNat < (after (exec .unpack oneRow)).outLen.toNat ∧
    (after (exec .unpack oneRow)).outLen.toNat ≤ (32#32).toNat ∧
    (after (exec .unpack oneRow)).outLen.toNat ≤ (after (exec .unpack oneRow)).outCap ∧
    (after (exec .unpack oneRow)).outCap ≤ (65536#32).toNat :=
  ⟨fun _ => rfl, by decide, by decide, by decide, by decide⟩

theorem witness_ReservedOffsetsAreInert :
    (∀ off ∈ [0x38, 0x3C, 0x4C, 0x5C, 0x6C, 0x70, 0x1000], off ∈ [0x38, 0x3C, 0x4C, 0x5C, 0x6C] ∨ 0x70 ≤ off) ∧
    (withEvents [.issue (.wr 0x70 5#32)] blank).pending = .issue (.wr 0x70 5#32) :: [] ∧
    (withEvents [.issue (.rd 0x38)] blank).pending = .issue (.rd 0x38) :: [] := by decide

theorem witness_CfgWriteStoresItsFields :
    (withEvents [asmWr .cfg 0xFFFFFFFF#32] blank).pending = .issue (.wr 0x08 0xFFFFFFFF#32) :: [] := by decide

theorem witness_ReadsAreIdempotent :
    (withEvents [asmRd .status, asmRd .status] blank).pending = .issue (.rd 0x04) :: .issue (.rd 0x04) :: [] ∧
    (withEvents [.issue (.outrd 0#32), .issue (.outrd 0#32)] blank).pending =
      .issue (.outrd 0#32) :: .issue (.outrd 0#32) :: [] := by decide

theorem witness_PlacedByteIsReadBack :
    (withEvents [.placeSrc 0xFFFFFFFF#32 7#8] blank).pending = .placeSrc 0xFFFFFFFF#32 7#8 :: [] := by decide

/-- One witness for each pseudo-instruction. -/
theorem witness_PseudoInstructionsExpand :
    (∃ (s : State) (c : BitVec 2), c ≠ 3#2 ∧ s.err = none ∧ s.pending = analyzeImm c 0xF800#32 ++ []) ∧
    (∃ s : State, s.pending = setCfg 1#16 0#2 true false ++ []) ∧
    (∃ s : State, s.err = none ∧ s.pos.toNat + 12 ≤ s.srcLen.toNat ∧ s.pending = ldMasks ++ []) ∧
    (∃ (s : State) (addr : Word), s.pending = outRd4 addr ++ [] ∧ addr.toNat + 3 < s.outLen.toNat) :=
  ⟨⟨withEvents (analyzeImm 2#2 0xF800#32) blank, 2#2, by decide, rfl, rfl⟩,
   ⟨withEvents (setCfg 1#16 0#2 true false) blank, rfl⟩,
   ⟨withEvents ldMasks { blank with srcLen := 12#32 }, rfl, by decide, rfl⟩,
   ⟨withEvents (outRd4 28#32) (after (exec .unpack oneRow)), 28#32, rfl, by decide⟩⟩

theorem witness_NopChangesNothing :
    (withEvents [asmCmd .nop] failedBlock).pending = .issue (.wr 0x00 0x00000000#32) :: [] := by decide

theorem witness_AnalyzeFunction : 0x0000F800#32 ≠ 0#32 := by decide

theorem witness_AnalyzeFunctionProperties :
    (0b101#32).getLsbD 0 = true ∧ (0b101#32).getLsbD 2 = true ∧ (0b111#32).getLsbD 0 = true ∧
    (0b111#32).getLsbD 2 = true ∧
    (∀ i, i < 32 → (0b101#32).getLsbD i = true ∨ (0b111#32).getLsbD i = true → 0 ≤ i ∧ i ≤ 2) := by decide

theorem witness_AnalyzeWritesItsRecord :
    (∃ (c : BitVec 2) (t : State), c ≠ 3#2 ∧ exec (.analyze c) failedBlock = .next t) ∧
    blank.arg = 0#32 ∧ ({ blank with arg := 0x80000000#32 } : State).arg = 0x80000000#32 ∧
    ({ blank with arg := 0xFFFFFFFF#32 } : State).arg = 0xFFFFFFFF#32 ∧ failedBlock.arg = 0x0000F800#32 :=
  ⟨⟨2#2, _, by decide, rfl⟩, by decide, by decide, by decide, by decide⟩

theorem witness_ChannelThreeRaisesBadCmd : Instr.ldmask ∈ [Instr.analyze, Instr.ldmask] := List.mem_cons_of_mem _ (List.mem_cons_self ..)

/-- Exactly four bytes left, and three. -/
theorem witness_LdmaskReadsAndAnalyzes :
    (2#2 : BitVec 2) ≠ 3#2 ∧ maskSource.pos.toNat + 4 ≤ maskSource.srcLen.toNat ∧
    ({ maskSource with srcLen := 3#32 } : State).srcLen.toNat < ({ maskSource with srcLen := 3#32 } : State).pos.toNat + 4 := by
  decide

/-- The copy with an exact fit, each failure at its bound, and the condition false at `BPP` = 9. -/
theorem witness_LdpalFillsThePalette :
    (paletteSource.bpp.toNat ≤ 8 ∧ 0 < paletteSource.palSize.toNat ∧ paletteSource.bmiu = false) ∧
    ({ paletteSource with palCap := 8 } : State).palSize.toNat ≤ ({ paletteSource with palCap := 8 } : State).palCap ∧
    ({ paletteSource with srcLen := 62#32 } : State).pos.toNat + ({ paletteSource with srcLen := 62#32 } : State).palSize.toNat
      ≤ ({ paletteSource with srcLen := 62#32 } : State).srcLen.toNat ∧
    ({ paletteSource with palSize := 1025#32 } : State).palCap < ({ paletteSource with palSize := 1025#32 } : State).palSize.toNat ∧
    ({ paletteSource with srcLen := 61#32 } : State).srcLen.toNat <
      ({ paletteSource with srcLen := 61#32 } : State).pos.toNat + ({ paletteSource with srcLen := 61#32 } : State).palSize.toNat ∧
    ¬ (({ paletteSource with cfg := 0x01000009#32 } : State).bpp.toNat ≤ 8 ∧ 0 < paletteSource.palSize.toNat ∧
      paletteSource.bmiu = false) := by decide

theorem witness_UnpackCompletes :
    ParamsLegal twoByTwo ∧ UnpackAccepts twoByTwo ∧ UnpackAccepts { twoByTwo with srcLen := 37#32 } ∧
    (∃ t, exec .unpack twoByTwo = .next t) ∧
    (∃ t, step (withEvents [asmCmd .unpack] twoByTwo) = .next t ∧ t.out ≠ (withEvents [asmCmd .unpack] twoByTwo).out) :=
  ⟨by decide, by decide, by decide, ⟨_, rfl⟩, ⟨_, rfl, by decide⟩⟩

/-- The last pixel of the last row. -/
theorem witness_UnpackMonochromePixels :
    UnpackAccepts twoByTwo ∧ twoByTwo.palLen = 0#32 ∧ 1 < twoByTwo.height.toNat ∧ 1 < twoByTwo.width.toNat := by decide

theorem witness_UnpackPalettePixels :
    (UnpackAccepts paletteLoaded ∧ paletteLoaded.palLen ≠ 0#32 ∧ 0 < paletteLoaded.height.toNat ∧
      3 < paletteLoaded.width.toNat) ∧
    GeometryAccepts { paletteLoaded with palLen := 7#32 } ∧ (7#32 : Word) ≠ 0#32 ∧
    (7#32).toNat < 2 * (if paletteLoaded.cfg.getLsbD 24 then 4 else 3) := by decide

/-- Each check failing alone, at its bound. -/
theorem witness_UnpackChecksInOrder :
    ({ twoByTwo with cfg := 0x00010001#32 } : State).comp ≠ 0#2 ∧ twoByTwo.bpp = 1#16 ∧ twoByTwo.comp = 0#2 ∧
    ({ twoByTwo with height := 0#32 } : State).height = 0#32 ∧ twoByTwo.height ≠ 0#32 ∧
    ({ twoByTwo with fileSize := 31#32 } : State).fileSize.toNat < twoByTwo.dataOffset.toNat ∧
    8 * ((40 - 32) / 2) < ({ twoByTwo with width := 33#32 } : State).width.toNat ∧
    GeometryAccepts { twoByTwo with width := 32#32 } ∧
    ({ twoByTwo with palLen := 5#32 } : State).palLen.toNat < 2 * twoByTwo.elementSize ∧
    2 * twoByTwo.elementSize ≤ ({ twoByTwo with palLen := 6#32 } : State).palLen.toNat ∧
    ({ twoByTwo with outCap := 15 } : State).outCap < 4 * twoByTwo.width.toNat * twoByTwo.height.toNat ∧
    4 * twoByTwo.width.toNat * twoByTwo.height.toNat ≤ ({ twoByTwo with outCap := 16 } : State).outCap ∧
    (36#32).toNat < twoByTwo.dataOffset.toNat + (twoByTwo.height.toNat - 1) * twoByTwo.rowAdvance + (2 + 7) / 8 ∧
    twoByTwo.dataOffset.toNat + (twoByTwo.height.toNat - 1) * twoByTwo.rowAdvance + (2 + 7) / 8 ≤ (37#32).toNat := by
  decide

theorem witness_UnsupportedDepthsAreRefused :
    ({ twoByTwo with cfg := 0x00000101#32 } : State).bpp ≠ 1#16 ∧ ({ twoByTwo with cfg := 0x00030001#32 } : State).comp = 3#2 ∧
    ({ twoByTwo with cfg := 0x00030001#32 } : State).bpp = 1#16 := by decide

theorem witness_RowAdvanceIsDeclaredRow :
    paddedRows.height ≠ 0#32 ∧ paddedRows.dataOffset.toNat ≤ paddedRows.fileSize.toNat ∧
    paddedRows.width.toNat ≤ 8 * paddedRows.declaredRow := by decide

theorem witness_SkipRuleBranches : 22 % 2 = 0 ∧ 23 % 2 ≠ 0 := by decide

theorem witness_AcceptedUnpackEndsTheAttempt :
    (withEvents [asmCmd .unpack] blank).err = none ∧
    (withEvents [asmCmd .unpack] blank).pending = .issue (.wr 0x00 0x00000005#32) :: [] := by decide

theorem witness_FailuresArePrecise :
    ∃ s t : State, ∃ rest, s.err = none ∧ s.pending = .issue (.wr 0x00 0x00000005#32) :: rest ∧ step s = .next t ∧
      t.err = some .fileNotSupported ∧ rest = .issue (.wr 0x00 0x00000004#32) :: [] ∧ 0x00000004#32 ≠ 0x00000001#32 :=
  ⟨withEvents [asmCmd .unpack, asmCmd .ldpal] blank, _, _, rfl, rfl, rfl, by decide, rfl, by decide⟩

/-- A command that fails; each code is reached in the tests above. -/
theorem witness_FailureCausesAreExhaustive :
    ∃ s t : State, s.err = none ∧ s.pending = .issue (.wr 0x00 0x00000103#32) :: [] ∧ step s = .next t ∧
      t.err ≠ none ∧ t.err ≠ s.err :=
  ⟨withEvents [asmCmd (.ldmask 1#2)] { maskSource with srcLen := 3#32 }, _, rfl, rfl, rfl, by decide, by decide⟩

theorem witness_MemoriesHaveOneWriter :
    (∃ t, step (withEvents [asmCmd .ldpal] paletteImage) = .next t ∧ t.pal ≠ paletteImage.pal) ∧
    (∃ t, step (withEvents [.placeSrc 9#32 1#8] blank) = .next t ∧ t.src ≠ blank.src) :=
  ⟨⟨_, rfl, by decide⟩, ⟨_, rfl, by decide⟩⟩

/-- Two different states whose stale bytes differ: a palette byte at `PAL_LEN` and an output byte at `OUT_LEN`. -/
theorem witness_StaleBytesAreUnobservable :
    ∃ s t s' : State, SameButUnobservable s t ∧ s ≠ t ∧ Sys2Proof.Machine.run 1 s = .next s' :=
  ⟨withEvents [asmCmd .unpack] { paletteLoaded with out := [(0, 1#8)] },
   withEvents [asmCmd .unpack] { paletteLoaded with out := [(0, 2#8)] }, _,
   ⟨rfl, fun _ _ => rfl, fun a h => absurd (show a < 0 from h) (Nat.not_lt_zero a)⟩, by decide, rfl⟩

theorem witness_NothingReadsBeyondSrcLen :
    ∃ s t s' : State, SameBelowSrcLen s t ∧ s ≠ t ∧ step s = .next s' :=
  ⟨withEvents [asmCmd (.ldmask 0#2)] { maskSource with src := Memory.cellsFrom 0 [1#8, 2#8, 3#8, 4#8, 5#8] },
   withEvents [asmCmd (.ldmask 0#2)] { maskSource with src := Memory.cellsFrom 0 [1#8, 2#8, 3#8, 4#8, 6#8] }, _,
   ⟨rfl, by decide⟩, by decide, rfl⟩

end Sys2Proof.Tests
end

section
/-! The step of an idle block. -/

namespace Sys2Proof.Machine

/-- With no event pending a step answers the same state (R11; log 2): the branch that `step_event` leaves out. -/
theorem step_of_pending_nil {s : State} (h : s.pending = []) : step s = .next s := by
  rw [step, serveNext, h]

/-- Settles O19: the branch of the step for an empty list of events. -/
theorem idleBlockKeepsItsState : Obligations.IdleBlockKeepsItsState :=
  fun _ hidle => step_of_pending_nil hidle

end Sys2Proof.Machine
end

section
/-! The invariant `StateInv`: it holds after reset, and each thing a step can do keeps it. -/

namespace Sys2Proof.Machine

/-! Clauses that hold of a state because it has no palette or no image. -/

theorem paletteWritten_of_empty {s : State} (h : s.palLen = 0#32) : PaletteWritten s := by
  intro a ha
  simp [h] at ha

theorem imageWritten_of_empty {s : State} (h : s.outLen = 0#32) : ImageWritten s := by
  intro a ha
  simp [h] at ha

theorem alphaOpaque_of_empty {s : State} (h : s.outLen = 0#32) : AlphaOpaque s := by
  intro a ha
  simp [h] at ha

theorem lengthsFit_of_empty {s : State} (hpal : s.palLen = 0#32) (hout : s.outLen = 0#32) : LengthsFit s := by
  simp [LengthsFit, hpal, hout]

/-- Settles O4: the parameters lie in range by the types of the two constants, everything else is empty or 0. -/
theorem invariantHoldsAtReset : Obligations.InvariantHoldsAtReset where
  params := by
    have hpal := Config.palCapAbove8.isLt
    have hout := Config.outCapValue.isLt
    simp only [ParamsLegal, State.reset, Config.palCap, Config.outCap]
    omega
  memories := ⟨Memory.wf_nil, Memory.wf_nil, Memory.wf_nil⟩
  capacity := by simp [WithinCapacity, State.reset]
  lengths := lengthsFit_of_empty rfl rfl
  channels := ⟨resetRecord_eq, resetRecord_eq, resetRecord_eq⟩
  cfgReserved := by decide
  leakFree := fun _ => ⟨rfl, rfl⟩
  doneOrErr := fun _ => rfl
  noImage := fun _ => ⟨rfl, rfl⟩
  paletteWritten := paletteWritten_of_empty rfl
  imageWritten := imageWritten_of_empty rfl
  alpha := alphaOpaque_of_empty rfl

/-- The invariant does not speak of the operand registers, of the events still pending or of the data returned. -/
theorem StateInv.of_operands {s t : State} (h : StateInv s)
    (ht : t = { s with
      arg := t.arg, srcLen := t.srcLen, pos := t.pos, fileSize := t.fileSize, dataOffset := t.dataOffset
      width := t.width, height := t.height, palSize := t.palSize, pending := t.pending, replies := t.replies }) :
    StateInv t := by
  rw [ht]
  exact { h with }

theorem StateInv.storeCfg {s : State} (h : StateInv s) (v : Word) : StateInv { s with cfg := v &&& cfgMask } :=
  { h with cfgReserved := by simp [CfgReservedZero, BitVec.and_assoc] }

theorem StateInv.placeByte {s : State} (h : StateInv s) (a : Word) (b : Byte) : StateInv (s.placeByte a b) := by
  obtain ⟨hpal, hout, hsrc⟩ := h.memories
  obtain ⟨hpalCap, houtCap, hsrcCap⟩ := h.capacity
  exact { h with
    memories := ⟨hpal, hout, Memory.wf_writeBytes hsrc _ _⟩
    capacity := ⟨hpalCap, houtCap, Memory.bounded_writeBytes hsrcCap a.isLt⟩ }

theorem StateInv.initRegs {s : State} (h : StateInv s) : StateInv s.initRegs :=
  { invariantHoldsAtReset with
    params := h.params
    memories := h.memories
    capacity := h.capacity
    lengths := lengthsFit_of_empty rfl rfl
    paletteWritten := paletteWritten_of_empty rfl
    imageWritten := imageWritten_of_empty rfl
    alpha := alphaOpaque_of_empty rfl }

theorem StateInv.fail {s : State} (h : StateInv s) (code : FailCode) : StateInv (s.fail code) :=
  { h with
    lengths := lengthsFit_of_empty rfl rfl
    leakFree := fun _ => ⟨rfl, rfl⟩
    doneOrErr := fun hdone => by simp at hdone
    noImage := fun _ => ⟨rfl, rfl⟩
    paletteWritten := paletteWritten_of_empty rfl
    imageWritten := imageWritten_of_empty rfl
    alpha := alphaOpaque_of_empty rfl }

/-- Writing an analyzed record to any channel leaves every record analyzed (R94). -/
theorem channelsAnalyzed_setChannel {s : State} (h : ChannelsAnalyzed s) (c : BitVec 2) (v : Word) :
    ChannelsAnalyzed (s.setChannel c (recordOf v)) := by
  obtain ⟨hR, hG, hB⟩ := h
  refine ⟨?_, ?_, ?_⟩
  · rw [setChannel_chR]; split <;> [rfl; exact hR]
  · rw [setChannel_chG]; split <;> [rfl; exact hG]
  · rw [setChannel_chB]; split <;> [rfl; exact hB]

/-- A channel write touches the three records alone. -/
theorem setChannel_frame (c : BitVec 2) (r : ChannelRecord) (s : State) :
    s.setChannel c r = { s with
      chR := (s.setChannel c r).chR, chG := (s.setChannel c r).chG, chB := (s.setChannel c r).chB } := by
  unfold State.setChannel; split_ifs <;> rfl

theorem StateInv.setChannel {s : State} (h : StateInv s) (c : BitVec 2) (v : Word) :
    StateInv (s.setChannel c (recordOf v)) := by
  have hchannels := channelsAnalyzed_setChannel h.channels c v
  rw [setChannel_frame] at hchannels ⊢
  exact { h with channels := hchannels }

theorem StateInv.dropPalette {s : State} (h : StateInv s) : StateInv { s with palLen := 0#32 } :=
  { h with
    lengths := ⟨Nat.zero_le _, h.lengths.2⟩
    leakFree := fun herr => ⟨rfl, (h.leakFree herr).2⟩
    paletteWritten := paletteWritten_of_empty rfl }

theorem StateInv.copyPalette {s : State} (h : StateInv s) (herr : s.err = none) (hf : paletteFailure s = none) :
    StateInv (copyPalette s) := by
  obtain ⟨hpal, hout, hsrc⟩ := h.memories
  obtain ⟨hpalCap, houtCap, hsrcCap⟩ := h.capacity
  obtain ⟨hfits, -⟩ := paletteFailure_none hf
  exact { h with
    memories := ⟨Memory.wf_writeBytes hpal _ _, hout, hsrc⟩
    capacity := ⟨Memory.bounded_writeBytes hpalCap (by simpa using hfits), houtCap, hsrcCap⟩
    lengths := ⟨hfits, h.lengths.2⟩
    leakFree := fun hc => absurd herr hc
    paletteWritten := fun a ha => by
      rw [copyPalette_palLen] at ha
      simp [Memory.byteAt_writeBytes, ha] }

/-- Every pixel ends in alpha 255, on either path (R114, R115). -/
theorem State.pixelBytes_alpha (s : State) (bit : Bool) : (s.pixelBytes bit)[3]? = some 255#8 := by
  unfold State.pixelBytes
  split <;> rfl

/-- Byte 3 of every pixel of the image is its alpha (R116). -/
theorem State.imageBytes_alpha (s : State) {a : Nat} (ha : a < s.imageBytes.length) (hmod : a % 4 = 3) :
    s.imageBytes[a]? = some 255#8 := by
  rw [State.imageBytes_length] at ha
  have hpixel : a / 4 < s.width.toNat * s.height.toNat := by
    rw [Nat.div_lt_iff_lt_mul (by decide)]
    linarith
  have hrow : a / 4 / s.width.toNat < s.height.toNat := Nat.div_lt_of_lt_mul hpixel
  have hwidth : 0 < s.width.toNat := Nat.pos_of_ne_zero fun h0 => by simp [h0] at hpixel
  have hcol : a / 4 % s.width.toNat < s.width.toNat := Nat.mod_lt _ hwidth
  have hplace : a = 4 * (a / 4 / s.width.toNat * s.width.toNat + a / 4 % s.width.toNat) + 3 := by
    rw [Nat.div_add_mod']
    omega
  rw [hplace, s.imageBytes_getElem? hrow hcol (by decide), s.pixelBytes_alpha]

/-- An address below `OUT_LEN` after UNPACK lies in the image. -/
theorem lt_imageBytes_length {s : State} {a : Nat} (ha : a < (unpackImage s).outLen.toNat) :
    a < s.imageBytes.length := by
  have hle : (unpackImage s).outLen.toNat ≤ 4 * s.width.toNat * s.height.toNat := by
    rw [unpackImage_outLen, BitVec.toNat_ofNat]
    exact Nat.mod_le _ _
  rw [State.imageBytes_length]
  linarith

/-- Below `OUT_LEN` the memory `OUT` holds the image after UNPACK (R116, R117). -/
theorem unpackImage_byteAt {s : State} {a : Nat} (ha : a < (unpackImage s).outLen.toNat) :
    Memory.byteAt (unpackImage s).out a = s.imageBytes[a]? := by
  rw [unpackImage_out, Memory.byteAt_writeBytes, if_pos ⟨Nat.zero_le _, by simpa using lt_imageBytes_length ha⟩,
    Nat.sub_zero]

theorem StateInv.unpackImage {s : State} (h : StateInv s) (herr : s.err = none) (hf : unpackFailure s = none) :
    StateInv (unpackImage s) := by
  obtain ⟨hpal, hout, hsrc⟩ := h.memories
  obtain ⟨hpalCap, houtCap, hsrcCap⟩ := h.capacity
  obtain ⟨-, -, -, -, -, -, hfits, -⟩ := unpackFailure_none hf
  have hlength : s.imageBytes.length ≤ s.outCap := by rw [State.imageBytes_length]; linarith
  exact { h with
    memories := ⟨hpal, Memory.wf_writeBytes hout _ _, hsrc⟩
    capacity := ⟨hpalCap, Memory.bounded_writeBytes houtCap (by rwa [Nat.zero_add]), hsrcCap⟩
    lengths := ⟨Nat.zero_le _, by
      rw [unpackImage_outLen, BitVec.toNat_ofNat]; exact (Nat.mod_le _ _).trans hfits⟩
    leakFree := fun hc => absurd herr hc
    doneOrErr := fun _ => herr
    noImage := fun hdone => by simp at hdone
    paletteWritten := paletteWritten_of_empty rfl
    imageWritten := fun a ha => by
      rw [unpackImage_byteAt ha, List.getElem?_eq_getElem (lt_imageBytes_length ha), Option.isSome_some]
    alpha := fun a ha hmod => by
      rw [State.outByte, unpackImage_byteAt ha, s.imageBytes_alpha (lt_imageBytes_length ha) hmod,
        Option.getD_some] }

/-- Every effect of an event keeps the invariant. -/
theorem Effect.stateInv {s t : State} (heff : Effect s t) (h : StateInv s) : StateInv t := by
  cases heff with
  | same => exact h
  | place a b => exact h.placeByte a b
  | init => exact h.initRegs
  | storeCfg v => exact h.storeCfg v
  | failed code _ => exact h.fail code
  | analyzed c _ => exact h.setChannel c _
  | maskLoaded c _ v u hr =>
    have hu : StateInv u := by
      rw [readU32LE_frame hr]
      exact h.of_operands rfl
    exact hu.setChannel c v
  | paletteCopied herr _ hf => exact h.copyPalette herr hf
  | paletteDropped _ _ => exact h.dropPalette
  | unpacked herr hf => exact h.unpackImage herr hf
  | reply | storeArg | storeSrcLen | storePos | storeFileSize | storeDataOffset | storeWidth | storeHeight
  | storePalSize => exact h.of_operands rfl

/-- Settles O5: taking the event off the list keeps the invariant, and so does each effect an event can have. -/
theorem stepKeepsInvariant : Obligations.StepKeepsInvariant := by
  intro s t h hstep
  obtain ⟨-, rfl⟩ | ⟨e, rest, -, heff⟩ := step_effect hstep
  · exact h
  · exact heff.stateInv (h.of_operands rfl)

end Sys2Proof.Machine
end

section
/-! Bytes of `PAL` at or above `PAL_LEN` and of `OUT` at or above `OUT_LEN`: states that differ there alone stay so under
each operation, then under each event, the step and a run. -/

namespace Sys2Proof.Machine

/-- The state with other contents in `PAL` and `OUT`. -/
def State.withMemories (pal out : Memory) (s : State) : State := { s with pal := pal, out := out }

@[simp] theorem State.withMemories_pal (pal out : Memory) (s : State) : (s.withMemories pal out).pal = pal := rfl
@[simp] theorem State.withMemories_out (pal out : Memory) (s : State) : (s.withMemories pal out).out = out := rfl

/-- Both outcomes are next states, and these differ at most in bytes that are not observable. -/
def AgreeOnObservable (o p : Host.Outcome State Fault Refusal) : Prop :=
  ∃ s t, o = .next s ∧ p = .next t ∧ SameButUnobservable s t

theorem AgreeOnObservable.next {s t : State} (h : SameButUnobservable s t) : AgreeOnObservable (.next s) (.next t) :=
  ⟨s, t, rfl, rfl, h⟩

theorem setChannel_withMemories (c : BitVec 2) (r : ChannelRecord) (s : State) (pal out : Memory) :
    (s.withMemories pal out).setChannel c r = (s.setChannel c r).withMemories pal out := by
  unfold State.setChannel
  split_ifs <;> rfl

/-- No register's value depends on the contents of `PAL` or `OUT` (R133). -/
theorem readReg_withMemories (r : Reg) (s : State) (pal out : Memory) :
    readReg r (s.withMemories pal out) = readReg r s := by
  cases r <;> rfl

theorem hostRead_withMemories (off : Nat) (s : State) (pal out : Memory) :
    hostRead off (s.withMemories pal out) = hostRead off s := by
  unfold hostRead
  split
  · rfl
  · exact readReg_withMemories _ _ _ _

/-- Below `PAL_LEN` the memory `PAL` holds the bytes at the cursor after a copy (R100). -/
theorem copyPalette_palByte (s : State) {a : Nat} (ha : a < s.palSize.toNat) :
    (copyPalette s).palByte a = s.srcByte (s.pos.toNat + a) := by
  have hlength : a < 0 + (s.srcBytes s.pos.toNat s.palSize.toNat).length := by simpa using ha
  rw [State.palByte, copyPalette_pal, Memory.byteAt_writeBytes, if_pos ⟨Nat.zero_le _, hlength⟩, Nat.sub_zero,
    s.srcBytes_getElem? _ ha, Option.getD_some]

theorem State.pixelBytes_of_palette {s : State} (h : s.palPresent = true) (bit : Bool) :
    s.pixelBytes bit = s.palettePixel bit := if_pos h

theorem State.pixelBytes_of_noPalette {s : State} (h : s.palPresent = false) (bit : Bool) :
    s.pixelBytes bit = monoPixel bit := if_neg (by simp [h])

theorem State.three_le_elementSize (s : State) : 3 ≤ s.elementSize := by
  unfold State.elementSize
  split <;> decide

namespace SameButUnobservable

variable {s t : State}

theorem exists_withMemories (h : SameButUnobservable s t) : ∃ pal out, t = s.withMemories pal out :=
  ⟨t.pal, t.out, h.1⟩

/-- A state that keeps the two memories and makes no more of them visible, beside the same state with the other's two
memories. -/
theorem of_frame (h : SameButUnobservable s t) (u : State) (hpal : u.pal = s.pal) (hout : u.out = s.out)
    (hpalLen : u.palLen.toNat ≤ s.palLen.toNat) (houtLen : u.outLen.toNat ≤ s.outLen.toNat) :
    SameButUnobservable u (u.withMemories t.pal t.out) := by
  obtain ⟨-, hpalByte, houtByte⟩ := h
  refine ⟨rfl, fun a ha => ?_, fun a ha => ?_⟩
  · simpa only [State.palByte, hpal, State.withMemories_pal] using hpalByte a (ha.trans_le hpalLen)
  · simpa only [State.outByte, hout, State.withMemories_out] using houtByte a (ha.trans_le houtLen)

/-! ### The operations -/

theorem fail (h : SameButUnobservable s t) (code : FailCode) : SameButUnobservable (s.fail code) (t.fail code) := by
  obtain ⟨pal, out, rfl⟩ := h.exists_withMemories
  exact h.of_frame (s.fail code) rfl rfl (Nat.zero_le _) (Nat.zero_le _)

theorem initRegs (h : SameButUnobservable s t) : SameButUnobservable s.initRegs t.initRegs := by
  obtain ⟨pal, out, rfl⟩ := h.exists_withMemories
  exact h.of_frame s.initRegs rfl rfl (Nat.zero_le _) (Nat.zero_le _)

theorem dropPalette (h : SameButUnobservable s t) :
    SameButUnobservable { s with palLen := 0#32 } { t with palLen := 0#32 } := by
  obtain ⟨pal, out, rfl⟩ := h.exists_withMemories
  exact h.of_frame { s with palLen := 0#32 } rfl rfl (Nat.zero_le _) le_rfl

theorem storePos (h : SameButUnobservable s t) (v : Word) :
    SameButUnobservable { s with pos := v } { t with pos := v } := by
  obtain ⟨pal, out, rfl⟩ := h.exists_withMemories
  exact h.of_frame { s with pos := v } rfl rfl le_rfl le_rfl

theorem setPending (h : SameButUnobservable s t) (events : List HostEvent) :
    SameButUnobservable { s with pending := events } { t with pending := events } := by
  obtain ⟨pal, out, rfl⟩ := h.exists_withMemories
  exact h.of_frame { s with pending := events } rfl rfl le_rfl le_rfl

theorem addReply (h : SameButUnobservable s t) (r : Reply) :
    SameButUnobservable (s.addReply r) (t.addReply r) := by
  obtain ⟨pal, out, rfl⟩ := h.exists_withMemories
  exact h.of_frame (s.addReply r) rfl rfl le_rfl le_rfl

theorem placeByte (h : SameButUnobservable s t) (a : Word) (b : Byte) :
    SameButUnobservable (s.placeByte a b) (t.placeByte a b) := by
  obtain ⟨pal, out, rfl⟩ := h.exists_withMemories
  exact h.of_frame (s.placeByte a b) rfl rfl le_rfl le_rfl

theorem setChannel (h : SameButUnobservable s t) (c : BitVec 2) (r : ChannelRecord) :
    SameButUnobservable (s.setChannel c r) (t.setChannel c r) := by
  obtain ⟨pal, out, rfl⟩ := h.exists_withMemories
  rw [setChannel_withMemories]
  exact h.of_frame (s.setChannel c r) (by simp) (by simp) (by simp) (by simp)

/-- Every byte of the palette comes from `SRC`, which is the same (R100). -/
theorem copyPalette (h : SameButUnobservable s t) : SameButUnobservable (copyPalette s) (copyPalette t) := by
  obtain ⟨pal, out, rfl⟩ := h.exists_withMemories
  refine ⟨rfl, fun a ha => ?_, h.2.2⟩
  calc (Machine.copyPalette s).palByte a
    _ = s.srcByte (s.pos.toNat + a) := copyPalette_palByte s ha
    _ = _ := (copyPalette_palByte (s.withMemories pal out) ha).symm

/-- A pixel through a palette of two entries reads no byte of `PAL` at or above `PAL_LEN` (R114). -/
theorem pixelBytes_eq (h : SameButUnobservable s t) (hfits : s.palPresent = true → 2 * s.elementSize ≤ s.palLen.toNat)
    (bit : Bool) : t.pixelBytes bit = s.pixelBytes bit := by
  have hpresent : t.palPresent = s.palPresent := by rw [h.1]; rfl
  have hsize : t.elementSize = s.elementSize := by rw [h.1]; rfl
  cases hs : s.palPresent with
  | false => rw [State.pixelBytes_of_noPalette (hpresent.trans hs), State.pixelBytes_of_noPalette hs]
  | true =>
    rw [State.pixelBytes_of_palette (hpresent.trans hs), State.pixelBytes_of_palette hs]
    have hsize3 := s.three_le_elementSize
    have hbyte : ∀ a, a < 2 * s.elementSize → t.palByte a = s.palByte a := fun a ha =>
      (h.2.1 a (ha.trans_le (hfits hs))).symm
    have hentry : (if bit then s.elementSize else 0) + 2 < 2 * s.elementSize := by split <;> omega
    simp only [State.palettePixel, hsize]
    rw [hbyte _ hentry, hbyte _ (by omega), hbyte _ (by omega)]

/-- So the image is the same. -/
theorem imageBytes_eq (h : SameButUnobservable s t)
    (hfits : s.palPresent = true → 2 * s.elementSize ≤ s.palLen.toNat) : t.imageBytes = s.imageBytes := by
  have hpixel := h.pixelBytes_eq hfits
  obtain ⟨pal, out, rfl⟩ := h.exists_withMemories
  have hrow : (s.withMemories pal out).rowBytes = s.rowBytes := by
    funext i
    simp only [State.rowBytes, hpixel]
    rfl
  rw [State.imageBytes, hrow]
  rfl

theorem unpackImage (h : SameButUnobservable s t) (hf : unpackFailure s = none) :
    SameButUnobservable (unpackImage s) (unpackImage t) := by
  obtain ⟨-, -, -, -, -, hfits, -, -⟩ := unpackFailure_none hf
  have himage := h.imageBytes_eq hfits
  obtain ⟨pal, out, rfl⟩ := h.exists_withMemories
  refine ⟨rfl, fun a ha => absurd ha (Nat.not_lt_zero a), fun a ha => ?_⟩
  have hs := unpackImage_byteAt ha
  have ht := unpackImage_byteAt (s := s.withMemories pal out) ha
  rw [State.outByte, State.outByte, hs, ht, himage]

/-- Reading a byte of `OUT` sees none at or above `OUT_LEN` (R134). -/
theorem outRead_eq (h : SameButUnobservable s t) (addr : Word) : outRead addr t = outRead addr s := by
  have hlen : t.outLen = s.outLen := by rw [h.1]
  obtain ⟨-, -, houtByte⟩ := h
  simp only [outRead, hlen]
  split
  · exact (houtByte _ ‹_›).symm
  · rfl

/-! ### The commands -/

theorem execAnalyze_agree (h : SameButUnobservable s t) (c : BitVec 2) :
    AgreeOnObservable (execAnalyze c s) (execAnalyze c t) := by
  have harg : t.arg = s.arg := by rw [h.1]
  simp only [execAnalyze, harg]
  split
  · exact .next (h.fail _)
  · exact .next (h.setChannel c _)

theorem execLdmask_agree (h : SameButUnobservable s t) (c : BitVec 2) :
    AgreeOnObservable (execLdmask c s) (execLdmask c t) := by
  obtain ⟨pal, out, rfl⟩ := h.exists_withMemories
  unfold execLdmask
  split
  · exact .next (h.fail _)
  · by_cases hshort : s.srcLen.toNat < s.pos.toNat + 4
    · rw [readU32LE_short hshort, readU32LE_short (s := s.withMemories pal out) hshort]
      exact .next (h.fail _)
    · have hread := Nat.le_of_not_lt hshort
      rw [readU32LE_fits hread, readU32LE_fits (s := s.withMemories pal out) hread]
      exact .next ((h.storePos _).setChannel c _)

theorem execLdpal_agree (h : SameButUnobservable s t) : AgreeOnObservable (execLdpal s) (execLdpal t) := by
  have hcopies : t.copiesPalette = s.copiesPalette := by rw [h.1]; rfl
  have hfailure : paletteFailure t = paletteFailure s := by rw [h.1]; rfl
  simp only [execLdpal, hcopies, hfailure]
  split
  · split
    · exact .next (h.fail _)
    · exact .next h.copyPalette
  · exact .next h.dropPalette

theorem execUnpack_agree (h : SameButUnobservable s t) : AgreeOnObservable (execUnpack s) (execUnpack t) := by
  have hfailure : unpackFailure t = unpackFailure s := by rw [h.1]; rfl
  simp only [execUnpack, hfailure]
  split
  · exact .next (h.fail _)
  · exact .next (h.unpackImage ‹_›)

theorem exec_agree (h : SameButUnobservable s t) (i : Instr) : AgreeOnObservable (exec i s) (exec i t) := by
  cases i with
  | nop => exact .next h
  | init => exact .next h.initRegs
  | analyze c => exact h.execAnalyze_agree c
  | ldmask c => exact h.execLdmask_agree c
  | ldpal => exact h.execLdpal_agree
  | unpack => exact h.execUnpack_agree

/-! ### Events, steps and runs -/

theorem acceptCommand_agree (h : SameButUnobservable s t) (w : Word) :
    AgreeOnObservable (acceptCommand w s) (acceptCommand w t) := by
  have hfaulted : t.faulted = s.faulted := by rw [h.1]; rfl
  simp only [acceptCommand, hfaulted]
  split
  · split
    · exact h.exec_agree .init
    · exact .next h
  · split
    · exact .next (h.fail _)
    · exact h.exec_agree _

theorem writeReg_agree (h : SameButUnobservable s t) (r : Reg) (data : Word) :
    AgreeOnObservable (writeReg r data s) (writeReg r data t) := by
  cases r with
  | cmd => exact h.acceptCommand_agree data
  | _ =>
    obtain ⟨pal, out, rfl⟩ := h.exists_withMemories
    exact .next (h.of_frame _ rfl rfl le_rfl le_rfl)

theorem transact_agree (h : SameButUnobservable s t) (x : Transaction) :
    AgreeOnObservable (transact x s) (transact x t) := by
  cases x with
  | wr off data =>
    simp only [transact, hostWrite]
    split
    · exact .next h
    · exact h.writeReg_agree _ data
  | rd off =>
    have hread : hostRead off t = hostRead off s := by rw [h.1]; exact hostRead_withMemories off s _ _
    simp only [transact, hread]
    exact .next (h.addReply _)
  | outrd addr =>
    simp only [transact, h.outRead_eq]
    exact .next (h.addReply _)

theorem performEvent_agree (h : SameButUnobservable s t) (e : HostEvent) :
    AgreeOnObservable (performEvent e s) (performEvent e t) := by
  cases e with
  | issue x => exact h.transact_agree x
  | hardReset => exact .next h.initRegs
  | placeSrc a b => exact .next (h.placeByte a b)

theorem step_agree (h : SameButUnobservable s t) : AgreeOnObservable (step s) (step t) := by
  have hsame : t.pending = s.pending := by rw [h.1]
  cases hpending : s.pending with
  | nil =>
    rw [step_of_pending_nil hpending, step_of_pending_nil (hsame.trans hpending)]
    exact .next h
  | cons e rest =>
    rw [step_event hpending, step_event (hsame.trans hpending)]
    exact performEvent_agree (h.setPending rest) e

theorem run_agree (h : SameButUnobservable s t) (n : Nat) : AgreeOnObservable (run n s) (run n t) := by
  induction n generalizing s t with
  | zero => exact .next h
  | succ n ih =>
    obtain ⟨s', t', hs, ht, h'⟩ := h.step_agree
    rw [run_succ n hs, run_succ n ht]
    exact ih h'

end SameButUnobservable

/-- Settles O48: every operation keeps the relation, so a run does; the replies are among what it says is equal. -/
theorem staleBytesAreUnobservable : Obligations.StaleBytesAreUnobservable := by
  intro n s t s' h hrun
  obtain ⟨u, t', hs, ht, h'⟩ := SameButUnobservable.run_agree h n
  obtain rfl : u = s' := by rw [hs] at hrun; injection hrun
  exact ⟨t', ht, h', by rw [h'.1]⟩

end Sys2Proof.Machine
end

section
/-! The words a read of `STATUS` and a write to `CFG` make, and their fields (R23, R24). -/

namespace Sys2Proof.Machine

theorem State.errNumber_lt (s : State) : s.errNumber < 8 := by
  unfold State.errNumber
  cases s.err with
  | none => decide
  | some code => cases code <;> decide

/-- The word of `STATUS` does not wrap (R23). -/
theorem State.statusWord_toNat (s : State) :
    s.statusWord.toNat = s.errNumber + 8 * (if s.done then 1 else 0) + 16 * (if s.palPresent then 1 else 0) := by
  have herr := s.errNumber_lt
  rw [State.statusWord, BitVec.toNat_ofNat, Nat.mod_eq_of_lt]
  split <;> split <;> omega

/-- A bit of a word, read off its number. -/
theorem getLsbD_of_div_mod {w : Word} {i : Nat} {b : Bool} (h : w.toNat / 2 ^ i % 2 = if b then 1 else 0) :
    w.getLsbD i = b := by
  rw [BitVec.getLsbD, Nat.testBit_eq_decide_div_mod_eq, h]
  cases b <;> rfl

/-- Settles O25: the three summands of the word lie in bits 2:0, 3 and 4. -/
theorem statusWordFields : Obligations.StatusWordFields := by
  intro s
  have herr := s.errNumber_lt
  have hword := s.statusWord_toNat
  have hbit : ∀ b : Bool, (if b then 1 else 0) ≤ 1 := by decide
  have hdone := hbit s.done
  have hpal := hbit s.palPresent
  refine ⟨?_, getLsbD_of_div_mod (by omega), ?_, ?_⟩
  · calc (s.statusWord.extractLsb' 0 3).toNat
      _ = s.errNumber := by rw [BitVec.extractLsb'_toNat, Nat.shiftRight_zero]; omega
      _ = _ := by
        unfold State.errNumber
        cases s.err with
        | none => rfl
        | some code => cases code <;> rfl
  · calc s.statusWord.getLsbD 4
      _ = s.palPresent := getLsbD_of_div_mod (by omega)
      _ = decide (s.palLen ≠ 0#32) := by rw [decide_not]; rfl
  · apply BitVec.eq_of_toNat_eq
    rw [BitVec.extractLsb'_toNat, Nat.shiftRight_eq_div_pow, BitVec.toNat_ofNat]
    omega

/-- The bits of `cfgMask` cover the four fields of `CFG` and none of its two reserved ranges (R24). -/
theorem cfgMask_fields :
    cfgMask.extractLsb' 0 16 = BitVec.allOnes 16 ∧ cfgMask.extractLsb' 16 2 = BitVec.allOnes 2 ∧
    cfgMask.getLsbD 24 = true ∧ cfgMask.getLsbD 25 = true ∧
    cfgMask.extractLsb' 18 6 = 0#6 ∧ cfgMask.extractLsb' 26 6 = 0#6 := by decide

/-- Settles O26: what is stored is `w &&& cfgMask`, taken field by field. -/
theorem cfgWriteStoresItsFields : Obligations.CfgWriteStoresItsFields := by
  intro s rest w hpending
  obtain ⟨hbpp, hcomp, hes4, hbmiu, hlow, hhigh⟩ := cfgMask_fields
  refine ⟨_, step_event hpending, rfl, ?_, ?_, ?_, ?_, ?_, ?_⟩
  · simp only [State.bpp, BitVec.extractLsb'_and, hbpp, BitVec.and_allOnes]
  · simp only [State.comp, BitVec.extractLsb'_and, hcomp, BitVec.and_allOnes]
  · simp only [State.es4, BitVec.getLsbD_and, hes4, Bool.and_true]
  · simp only [State.bmiu, BitVec.getLsbD_and, hbmiu, Bool.and_true]
  · simp only [BitVec.extractLsb'_and, hlow, BitVec.and_zero]
  · simp only [BitVec.extractLsb'_and, hhigh, BitVec.and_zero]

end Sys2Proof.Machine
end

section
/-! Reset, reserved offsets, and a byte placed in `SRC`. -/

namespace Sys2Proof.Machine

/-- With `OUT_LEN` = 0 no byte of `OUT` can be read (R134). -/
theorem outRead_of_empty {s : State} (h : s.outLen = 0#32) (addr : Word) : outRead addr s = 0#8 := by
  simp [outRead, h]

/-- Settles O1: the values of R42 as they stand in `State.reset` and in `State.initRegs`. -/
theorem resetAndInitGiveResetValues : Obligations.ResetAndInitGiveResetValues :=
  ⟨⟨rfl, rfl, rfl, rfl, rfl, rfl, rfl, rfl, rfl, rfl, rfl, rfl, rfl, rfl, rfl, rfl, rfl, rfl, rfl,
    outRead_of_empty rfl⟩, fun _ => ⟨rfl, rfl⟩⟩

/-- An offset at which a register is found is that register's own (R21). -/
theorem regAt_eq_some {off : Nat} {r : Reg} (h : regAt off = some r) : off = r.offset := by
  unfold regAt at h
  split at h <;> cases h <;> rfl

theorem Reg.offset_not_reserved (r : Reg) : ¬ (r.offset ∈ [0x38, 0x3C, 0x4C, 0x5C, 0x6C] ∨ 0x70 ≤ r.offset) := by
  cases r <;> decide

/-- No register stands at a reserved offset or beyond the space (R44). -/
theorem regAt_reserved {off : Nat} (h : off ∈ [0x38, 0x3C, 0x4C, 0x5C, 0x6C] ∨ 0x70 ≤ off) : regAt off = none := by
  cases hreg : regAt off with
  | none => rfl
  | some r =>
    rw [regAt_eq_some hreg] at h
    exact absurd h r.offset_not_reserved

theorem hostWrite_of_regAt_none {off : Nat} (h : regAt off = none) (data : Word) (s : State) :
    hostWrite off data s = .next s := by
  rw [hostWrite, h]

theorem hostRead_of_regAt_none {off : Nat} (h : regAt off = none) (s : State) : hostRead off s = 0#32 := by
  rw [hostRead, h]

/-- Settles O24: no register stands there, so a write is dropped and a read gives 0. -/
theorem reservedOffsetsAreInert : Obligations.ReservedOffsetsAreInert := by
  intro s rest off v hreserved
  have hnone := regAt_reserved hreserved
  refine ⟨fun hpending => ?_, fun hpending => ?_⟩
  · rw [step_event hpending]
    exact hostWrite_of_regAt_none hnone v _
  · rw [step_event hpending, performEvent, transact, hostRead_of_regAt_none hnone]
    rfl

/-- A placed byte is read at its address, every other address as before (R39). -/
theorem placeByte_srcByte (a : Word) (b : Byte) (s : State) (x : Nat) :
    (s.placeByte a b).srcByte x = if x = a.toNat then b else s.srcByte x := by
  unfold State.srcByte
  rw [placeByte_src, Memory.byteAt_writeBytes, List.length_singleton]
  by_cases hx : x = a.toNat
  · rw [if_pos (by omega), if_pos hx, hx, Nat.sub_self, List.getElem?_cons_zero, Option.getD_some]
  · rw [if_neg (by omega), if_neg hx]

/-- Settles O28: the event is one write of one byte of `SRC`. -/
theorem placedByteIsReadBack : Obligations.PlacedByteIsReadBack := by
  intro s rest a b hpending
  refine ⟨State.placeByte a b { s with pending := rest }, step_event hpending, rfl, ?_, fun x hx => ?_⟩
  · rw [placeByte_srcByte, if_pos rfl]
  · rw [placeByte_srcByte, if_neg hx]
    rfl

end Sys2Proof.Machine
end

section
/-! Which event can change which memory. -/

namespace Sys2Proof.Machine

/-- The effects that change a parameter: none (R6). -/
theorem Effect.parameters {s t : State} (heff : Effect s t) : t.palCap = s.palCap ∧ t.outCap = s.outCap := by
  cases heff with
  | analyzed c _ => exact ⟨setChannel_palCap .., setChannel_outCap ..⟩
  | maskLoaded c _ v u hr =>
    rw [setChannel_palCap, setChannel_outCap, readU32LE_frame hr]
    exact ⟨rfl, rfl⟩
  | _ => exact ⟨rfl, rfl⟩

/-- A word is the encoding of the command whose fields it holds (R71). -/
theorem encode_eq_of_fields {w : Word} {i : Instr} (hrsv : rsvField w = 0#22) (hop : opField w = opcode i)
    (hch : chField w = channelOf i) : encode i = w := by
  rw [encode, ← hop, ← hch, commandWord_fields hrsv]

theorem decodePlain_ok {ch : BitVec 2} {i j : Instr} (h : decodePlain ch i = .ok j) : ch = 0#2 ∧ i = j := by
  unfold decodePlain at h
  split at h <;> cases h
  exact ⟨‹_›, rfl⟩

theorem decodeChannel_ok {ch : BitVec 2} {f : BitVec 2 → Instr} {j : Instr} (h : decodeChannel ch f = .ok j) :
    ch ≠ 3#2 ∧ f ch = j := by
  unfold decodeChannel at h
  split at h <;> cases h
  exact ⟨‹_›, rfl⟩

/-- A legal word is the encoding of the command it decodes to (R71 to R75). -/
theorem encode_of_decode {w : Word} {i : Instr} (h : decode w = .ok i) : encode i = w := by
  unfold decode at h
  split at h
  case isTrue => cases h
  case isFalse hrsv =>
    have hrsv := not_not.1 hrsv
    have hplain : ∀ {j}, decodePlain (chField w) j = .ok i → channelOf j = 0#2 → opField w = opcode j →
        encode i = w := by
      intro j hj hnone hop
      obtain ⟨hch, rfl⟩ := decodePlain_ok hj
      exact encode_eq_of_fields hrsv hop (hch.trans hnone.symm)
    split at h <;> rename_i hop
    · exact hplain h rfl (BitVec.eq_of_toNat_eq hop)
    · exact hplain h rfl (BitVec.eq_of_toNat_eq hop)
    · obtain ⟨-, rfl⟩ := decodeChannel_ok h
      exact encode_eq_of_fields hrsv (BitVec.eq_of_toNat_eq hop) rfl
    · obtain ⟨-, rfl⟩ := decodeChannel_ok h
      exact encode_eq_of_fields hrsv (BitVec.eq_of_toNat_eq hop) rfl
    · exact hplain h rfl (BitVec.eq_of_toNat_eq hop)
    · exact hplain h rfl (BitVec.eq_of_toNat_eq hop)
    · cases h

/-- No command writes `SRC`, only LDPAL writes `PAL` and only UNPACK writes `OUT` (R37 to R39). -/
theorem exec_memories {i : Instr} {s t : State} (h : exec i s = .next t) :
    t.src = s.src ∧ (i ≠ .ldpal → t.pal = s.pal) ∧ (i ≠ .unpack → t.out = s.out) := by
  cases i with
  | nop => cases h; simp
  | init => cases h; simp
  | analyze c =>
    simp only [exec, execAnalyze] at h
    split at h <;> cases h <;> simp
  | ldmask c =>
    simp only [exec, execLdmask] at h
    split at h
    · cases h; simp
    · split at h
      · cases h; simp
      · next hread => cases h; rw [readU32LE_frame hread]; simp
  | ldpal =>
    simp only [exec, execLdpal] at h
    split at h
    · split at h <;> cases h <;> simp
    · cases h; simp
  | unpack =>
    simp only [exec, execUnpack] at h
    split at h <;> cases h <;> simp

/-- The same of a word written to `CMD`: a memory it changes, it changes in a block that is not faulted. -/
theorem acceptCommand_memories {w : Word} {s t : State} (h : acceptCommand w s = .next t) :
    t.src = s.src ∧ (t.pal ≠ s.pal → s.err = none ∧ w = encode .ldpal) ∧
    (t.out ≠ s.out → s.err = none ∧ w = encode .unpack) := by
  unfold acceptCommand at h
  split at h
  · split at h <;> cases h <;> simp
  · next hfaulted =>
    have herr : s.err = none := by simpa using hfaulted
    split at h
    · cases h; simp
    · next i hdecode =>
      obtain ⟨hsrc, hpal, hout⟩ := exec_memories h
      refine ⟨hsrc, fun hne => ⟨herr, ?_⟩, fun hne => ⟨herr, ?_⟩⟩
      · rw [← encode_of_decode hdecode, not_not.1 (mt hpal hne)]
      · rw [← encode_of_decode hdecode, not_not.1 (mt hout hne)]

/-- The same of an event: only the placing of a byte writes `SRC`. -/
theorem performEvent_memories {e : HostEvent} {s t : State} (h : performEvent e s = .next t) :
    (t.src ≠ s.src → ∃ a b, e = .placeSrc a b) ∧
    (t.pal ≠ s.pal → s.err = none ∧ e = .issue (.wr 0x00 (encode .ldpal))) ∧
    (t.out ≠ s.out → s.err = none ∧ e = .issue (.wr 0x00 (encode .unpack))) := by
  cases e with
  | hardReset => cases h; simp
  | placeSrc a b => cases h; simp
  | issue x =>
    cases x with
    | rd off => cases h; simp
    | outrd addr => cases h; simp
    | wr off data =>
      simp only [performEvent, transact, hostWrite] at h
      split at h
      · cases h; simp
      · next r hreg =>
        cases r with
        | cmd =>
          obtain ⟨hsrc, hpal, hout⟩ := acceptCommand_memories h
          obtain rfl : off = 0x00 := regAt_eq_some hreg
          exact ⟨absurd hsrc, fun hne => ⟨(hpal hne).1, by rw [(hpal hne).2]⟩,
            fun hne => ⟨(hout hne).1, by rw [(hout hne).2]⟩⟩
        | _ => cases h; simp

/-- The same of a step. -/
theorem step_memories {s t : State} (h : step s = .next t) :
    (t.src ≠ s.src → ∃ a b rest, s.pending = .placeSrc a b :: rest) ∧
    (t.pal ≠ s.pal → s.err = none ∧ ∃ rest, s.pending = .issue (.wr 0x00 (encode .ldpal)) :: rest) ∧
    (t.out ≠ s.out → s.err = none ∧ ∃ rest, s.pending = .issue (.wr 0x00 (encode .unpack)) :: rest) := by
  cases hpending : s.pending with
  | nil =>
    rw [step_of_pending_nil hpending] at h
    cases h; simp
  | cons e rest =>
    rw [step_event hpending] at h
    obtain ⟨hsrc, hpal, hout⟩ := performEvent_memories h
    refine ⟨fun hne => ?_, fun hne => ?_, fun hne => ?_⟩
    · obtain ⟨a, b, rfl⟩ := hsrc hne
      exact ⟨a, b, rest, rfl⟩
    · obtain ⟨herr, rfl⟩ := hpal hne
      exact ⟨herr, rest, rfl⟩
    · obtain ⟨herr, rfl⟩ := hout hne
      exact ⟨herr, rest, rfl⟩

/-- No step changes a parameter (R6). -/
theorem step_parameters {s t : State} (h : step s = .next t) : t.palCap = s.palCap ∧ t.outCap = s.outCap := by
  obtain ⟨-, rfl⟩ | ⟨e, rest, -, heff⟩ := step_effect h
  · exact ⟨rfl, rfl⟩
  · exact heff.parameters

/-- Settles O47: the events that can write `PAL` and `SRC`, and the effects of a step on the parameters. -/
theorem memoriesHaveOneWriter : Obligations.MemoriesHaveOneWriter := by
  intro s t h
  obtain ⟨hsrc, hpal, -⟩ := step_memories h
  exact ⟨hpal, hsrc, step_parameters h⟩

end Sys2Proof.Machine
end

section
/-! The canonical form of the three memories, whatever a step does. -/

namespace Sys2Proof.Machine

/-- Every effect of an event keeps the canonical form: a memory is left alone or written by `Memory.writeBytes`. -/
theorem Effect.memoriesCanonical {s t : State} (heff : Effect s t) (h : MemoriesCanonical s) :
    MemoriesCanonical t := by
  obtain ⟨hpal, hout, hsrc⟩ := h
  cases heff with
  | place a b => exact ⟨hpal, hout, Memory.wf_writeBytes hsrc _ _⟩
  | paletteCopied _ _ _ => exact ⟨Memory.wf_writeBytes hpal _ _, hout, hsrc⟩
  | unpacked _ _ => exact ⟨hpal, Memory.wf_writeBytes hout _ _, hsrc⟩
  | analyzed c _ =>
    rw [setChannel_frame]
    exact ⟨hpal, hout, hsrc⟩
  | maskLoaded c _ v u hr =>
    rw [setChannel_frame, readU32LE_frame hr]
    exact ⟨hpal, hout, hsrc⟩
  | _ => exact ⟨hpal, hout, hsrc⟩

/-- Settles O7: taking the event off the list touches no memory, and each effect keeps the form. -/
theorem stepKeepsMemoriesCanonical : Obligations.StepKeepsMemoriesCanonical := by
  intro s t h hstep
  obtain ⟨-, rfl⟩ | ⟨e, rest, -, heff⟩ := step_effect hstep
  · exact h
  · exact heff.memoriesCanonical h

end Sys2Proof.Machine
end

section
/-! Reads by the host: what they do not depend on, and the same one served twice. -/

namespace Sys2Proof.Machine

/-- No register's value depends on the host's side of the state: `SRC`, the events pending, the data returned (R133). -/
theorem readReg_hostSide (r : Reg) (s : State) (src : Memory) (pending : List HostEvent) (replies : List Reply) :
    readReg r { s with src := src, pending := pending, replies := replies } = readReg r s := by
  cases r <;> rfl

theorem hostRead_hostSide (off : Nat) (s : State) (src : Memory) (pending : List HostEvent) (replies : List Reply) :
    hostRead off { s with src := src, pending := pending, replies := replies } = hostRead off s := by
  unfold hostRead
  split
  · rfl
  · exact readReg_hostSide _ _ _ _ _

/-- An event that only returns `r`, whatever is pending and has been returned, returns `r` again when it is repeated. -/
theorem run_repeated_read {s : State} {e : HostEvent} {rest : List HostEvent} {r : Reply}
    (hserve : ∀ pending replies, performEvent e { s with pending := pending, replies := replies } =
      .next { s with pending := pending, replies := replies ++ [r] })
    (hpending : s.pending = e :: e :: rest) :
    run 2 s = .next { s with pending := rest, replies := s.replies ++ [r, r] } := by
  have hfirst : step s = .next { s with pending := e :: rest, replies := s.replies ++ [r] } :=
    (step_event hpending).trans (hserve (e :: rest) s.replies)
  have hsecond : step { s with pending := e :: rest, replies := s.replies ++ [r] } =
      .next { s with pending := rest, replies := s.replies ++ [r] ++ [r] } :=
    (step_event rfl).trans (hserve rest (s.replies ++ [r]))
  rw [run_succ 1 hfirst, run_succ 0 hsecond, run_zero, List.append_assoc, List.singleton_append]

/-- Settles O27: the value read depends neither on the list of events nor on the data returned before. -/
theorem readsAreIdempotent : Obligations.ReadsAreIdempotent := by
  refine ⟨fun s rest off hpending => ⟨hostRead off s, run_repeated_read (fun pending replies => ?_) hpending⟩,
    fun s rest a hpending => ⟨outRead a s, run_repeated_read (fun _ _ => rfl) hpending⟩⟩
  rw [performEvent, transact, hostRead_hostSide off s s.src pending replies]
  rfl

end Sys2Proof.Machine
end

section
/-! Bytes of `SRC` at or above `SRC_LEN`: a state and the same state with other such bytes take steps to states that
differ in `SRC` alone. -/

namespace Sys2Proof.Machine

/-- The state with other contents in `SRC`. -/
def State.withSource (src : Memory) (s : State) : State := { s with src := src }

@[simp] theorem State.withSource_pos (src : Memory) (s : State) : (s.withSource src).pos = s.pos := rfl
@[simp] theorem State.withSource_palSize (src : Memory) (s : State) : (s.withSource src).palSize = s.palSize := rfl

/-- Both outcomes are next states, and these differ at most in the contents of `SRC`. -/
def AgreeButForSource (o p : Host.Outcome State Fault Refusal) : Prop :=
  ∃ s src, o = .next s ∧ p = .next (s.withSource src)

theorem AgreeButForSource.next (s : State) (src : Memory) :
    AgreeButForSource (.next s) (.next (s.withSource src)) :=
  ⟨s, src, rfl, rfl⟩

theorem setChannel_withSource (c : BitVec 2) (r : ChannelRecord) (s : State) (src : Memory) :
    (s.withSource src).setChannel c r = (s.setChannel c r).withSource src := by
  unfold State.setChannel
  split_ifs <;> rfl

/-- The row cursor moves forward (R113). -/
theorem State.rowCursor_mono (s : State) {i j : Nat} (h : i ≤ j) : s.rowCursor i ≤ s.rowCursor j :=
  Nat.add_le_add_left (Nat.mul_le_mul_right _ h) _

/-- When no check of UNPACK fails, the byte of every pixel lies below `SRC_LEN` (R110 check 7, R113). -/
theorem pixelByte_lt_srcLen {s : State} (hf : unpackFailure s = none) {i j : Nat} (hi : i < s.height.toNat)
    (hj : j < s.width.toNat) : s.rowCursor i + j / 8 < s.srcLen.toNat := by
  obtain ⟨-, -, -, -, -, -, -, hlast⟩ := unpackFailure_none hf
  have hfits := hlast (by omega)
  have hrow := s.rowCursor_mono (Nat.le_sub_one_of_lt hi)
  rw [ceil8] at hfits
  omega

namespace SameBelowSrcLen

variable {s : State} {src : Memory}

theorem srcByte_eq (h : SameBelowSrcLen s (s.withSource src)) {a : Nat} (ha : a < s.srcLen.toNat) :
    (s.withSource src).srcByte a = s.srcByte a :=
  (h.2 a ha).symm

/-! ### The reads of `SRC`: the cursor read, the palette copy and the image -/

/-- The four bytes at the cursor are read only where all four lie below `SRC_LEN` (R92). -/
theorem readU32LE_eq (h : SameBelowSrcLen s (s.withSource src)) (hread : s.pos.toNat + 4 ≤ s.srcLen.toNat) :
    ∃ v u, readU32LE s = .ok (v, u) ∧ readU32LE (s.withSource src) = .ok (v, u.withSource src) := by
  refine ⟨_, _, readU32LE_fits hread, ?_⟩
  rw [readU32LE_fits (s := s.withSource src) hread]
  simp (disch := omega) only [State.withSource_pos, h.srcByte_eq]
  rfl

/-- A copying LDPAL reads only bytes below `SRC_LEN` (R100). -/
theorem copyPalette_eq (h : SameBelowSrcLen s (s.withSource src)) (hf : paletteFailure s = none) :
    copyPalette (s.withSource src) = (copyPalette s).withSource src := by
  obtain ⟨-, hfits⟩ := paletteFailure_none hf
  have hbytes : (s.withSource src).srcBytes s.pos.toNat s.palSize.toNat = s.srcBytes s.pos.toNat s.palSize.toNat :=
    List.map_congr_left fun k hk => h.srcByte_eq (by have := List.mem_range.1 hk; omega)
  rw [copyPalette, State.withSource_pos, State.withSource_palSize, hbytes]
  rfl

/-- UNPACK finds every stored bit below `SRC_LEN` (R113). -/
theorem imageBytes_eq (h : SameBelowSrcLen s (s.withSource src)) (hf : unpackFailure s = none) :
    (s.withSource src).imageBytes = s.imageBytes := by
  have hbit : ∀ i < s.height.toNat, ∀ j < s.width.toNat,
      (s.withSource src).pixelBit (s.rowCursor i) j = s.pixelBit (s.rowCursor i) j := fun i hi j hj => by
    rw [State.pixelBit, h.srcByte_eq (pixelByte_lt_srcLen hf hi hj)]
    rfl
  exact List.flatMap_congr fun i hi => List.flatMap_congr fun j hj =>
    congrArg s.pixelBytes (hbit i (List.mem_range.1 hi) j (List.mem_range.1 hj))

theorem unpackImage_eq (h : SameBelowSrcLen s (s.withSource src)) (hf : unpackFailure s = none) :
    unpackImage (s.withSource src) = (unpackImage s).withSource src := by
  rw [unpackImage, h.imageBytes_eq hf]
  rfl

/-! ### The commands -/

theorem execAnalyze_agree (c : BitVec 2) :
    AgreeButForSource (execAnalyze c s) (execAnalyze c (s.withSource src)) := by
  unfold execAnalyze
  split
  · exact .next _ _
  · rw [setChannel_withSource]
    exact .next _ _

theorem execLdmask_agree (h : SameBelowSrcLen s (s.withSource src)) (c : BitVec 2) :
    AgreeButForSource (execLdmask c s) (execLdmask c (s.withSource src)) := by
  unfold execLdmask
  split
  · exact .next _ _
  · by_cases hshort : s.srcLen.toNat < s.pos.toNat + 4
    · rw [readU32LE_short hshort, readU32LE_short (s := s.withSource src) hshort]
      exact .next _ _
    · obtain ⟨v, u, hs, ht⟩ := h.readU32LE_eq (Nat.le_of_not_lt hshort)
      simp only [hs, ht, setChannel_withSource]
      exact .next _ _

theorem execLdpal_agree (h : SameBelowSrcLen s (s.withSource src)) :
    AgreeButForSource (execLdpal s) (execLdpal (s.withSource src)) := by
  have hcopies : (s.withSource src).copiesPalette = s.copiesPalette := rfl
  have hfailure : paletteFailure (s.withSource src) = paletteFailure s := rfl
  simp only [execLdpal, hcopies, hfailure]
  split
  · split
    · exact .next _ _
    · rw [h.copyPalette_eq ‹_›]
      exact .next _ _
  · exact .next { s with palLen := 0#32 } _

theorem execUnpack_agree (h : SameBelowSrcLen s (s.withSource src)) :
    AgreeButForSource (execUnpack s) (execUnpack (s.withSource src)) := by
  have hfailure : unpackFailure (s.withSource src) = unpackFailure s := rfl
  simp only [execUnpack, hfailure]
  split
  · exact .next _ _
  · rw [h.unpackImage_eq ‹_›]
    exact .next _ _

theorem exec_agree (h : SameBelowSrcLen s (s.withSource src)) (i : Instr) :
    AgreeButForSource (exec i s) (exec i (s.withSource src)) := by
  cases i with
  | nop => exact .next s src
  | init => exact .next s.initRegs src
  | analyze c => exact execAnalyze_agree c
  | ldmask c => exact h.execLdmask_agree c
  | ldpal => exact h.execLdpal_agree
  | unpack => exact h.execUnpack_agree

/-! ### Events and steps -/

theorem acceptCommand_agree (h : SameBelowSrcLen s (s.withSource src)) (w : Word) :
    AgreeButForSource (acceptCommand w s) (acceptCommand w (s.withSource src)) := by
  have hfaulted : (s.withSource src).faulted = s.faulted := rfl
  simp only [acceptCommand, hfaulted]
  split
  · split
    · exact h.exec_agree .init
    · exact .next _ _
  · split
    · exact .next _ _
    · exact h.exec_agree _

theorem writeReg_agree (h : SameBelowSrcLen s (s.withSource src)) (r : Reg) (data : Word) :
    AgreeButForSource (writeReg r data s) (writeReg r data (s.withSource src)) := by
  cases r with
  | cmd => exact h.acceptCommand_agree data
  | _ => exact .next _ src

theorem transact_agree (h : SameBelowSrcLen s (s.withSource src)) (x : Transaction) :
    AgreeButForSource (transact x s) (transact x (s.withSource src)) := by
  cases x with
  | wr off data =>
    simp only [transact, hostWrite]
    split
    · exact .next _ _
    · exact h.writeReg_agree _ data
  | rd off =>
    have hread : hostRead off (s.withSource src) = hostRead off s :=
      hostRead_hostSide off s src s.pending s.replies
    rw [transact, transact, hread]
    exact .next (s.addReply _) src
  | outrd addr => exact .next (s.addReply (.byte (outRead addr s))) src

theorem performEvent_agree (h : SameBelowSrcLen s (s.withSource src)) (e : HostEvent) :
    AgreeButForSource (performEvent e s) (performEvent e (s.withSource src)) := by
  cases e with
  | issue x => exact h.transact_agree x
  | hardReset => exact .next s.initRegs src
  | placeSrc a b => exact .next (s.placeByte a b) (Memory.writeBytes src a.toNat [b])

theorem step_agree (h : SameBelowSrcLen s (s.withSource src)) :
    AgreeButForSource (step s) (step (s.withSource src)) := by
  cases hpending : s.pending with
  | nil =>
    rw [step_of_pending_nil hpending, step_of_pending_nil (s := s.withSource src) hpending]
    exact .next _ _
  | cons e rest =>
    rw [step_event hpending, step_event (s := s.withSource src) hpending]
    exact performEvent_agree (s := { s with pending := rest }) ⟨rfl, h.2⟩ e

end SameBelowSrcLen

/-- Settles O49: LDMASK, LDPAL and UNPACK check `SRC_LEN` first, and nothing else depends on `SRC`. -/
theorem nothingReadsBeyondSrcLen : Obligations.NothingReadsBeyondSrcLen := by
  intro s t s' h hstep
  obtain ⟨src, rfl⟩ : ∃ src, t = s.withSource src := ⟨t.src, h.1⟩
  obtain ⟨u, src', hs, ht⟩ := SameBelowSrcLen.step_agree h
  obtain rfl : u = s' := by rw [hs] at hstep; injection hstep
  exact ⟨u.withSource src', ht, rfl⟩

end Sys2Proof.Machine
end

section
/-! Decoding and encoding: a word against its three fields, and the words the decoder accepts and rejects (R71 to R75). -/

namespace Sys2Proof.Machine

/-- A word is a command's exactly when it holds that operation code and channel, and `RSV` = 0 (R71). -/
theorem commandWord_eq_iff {op : BitVec 8} {ch : BitVec 2} {w : Word} :
    commandWord op ch = w ↔ opField w = op ∧ chField w = ch ∧ rsvField w = 0#22 := by
  constructor
  · rintro rfl
    simp
  · rintro ⟨rfl, rfl, hrsv⟩
    exact commandWord_fields hrsv

/-- Clearing `CH` keeps `OP` and `RSV`: what the mask of ANALYZE and LDMASK compares (R72). -/
theorem and_mask_eq_commandWord_iff {op : BitVec 8} {w : Word} :
    w &&& 0xFFFFFCFF#32 = commandWord op 0#2 ↔ opField w = op ∧ rsvField w = 0#22 := by
  have hop : opField (w &&& 0xFFFFFCFF#32) = opField w := by
    rw [opField, BitVec.extractLsb'_and]
    exact BitVec.and_allOnes
  have hch : chField (w &&& 0xFFFFFCFF#32) = 0#2 := by
    rw [chField, BitVec.extractLsb'_and]
    exact BitVec.and_zero
  have hrsv : rsvField (w &&& 0xFFFFFCFF#32) = rsvField w := by
    rw [rsvField, BitVec.extractLsb'_and]
    exact BitVec.and_allOnes
  rw [eq_comm, commandWord_eq_iff, hop, hch, hrsv, eq_self, true_and]

theorem decodeChannel_of_ne_three {ch : BitVec 2} (h : ch ≠ 3#2) (f : BitVec 2 → Instr) :
    decodeChannel ch f = .ok (f ch) := if_neg h

/-- The word of a well-formed command decodes to it (R72, R75). -/
theorem decode_encode {i : Instr} (h : i.wellFormed = true) : decode (encode i) = .ok i := by
  cases i with
  | analyze ch | ldmask ch =>
    have hch : ch ≠ 3#2 := by simpa [Instr.wellFormed] using h
    simp [decode, encode, opcode, channelOf, decodeChannel_of_ne_three hch]
  | _ => rfl

/-- The decoder answers well-formed commands only: the word of an ill-formed one is rejected (R74). -/
theorem wellFormed_of_decode {w : Word} {i : Instr} (h : decode w = .ok i) : i.wellFormed = true := by
  rw [← encode_of_decode h] at h
  cases i with
  | analyze ch | ldmask ch =>
    simp only [Instr.wellFormed, bne_iff_ne]
    rintro rfl
    cases h
  | _ => rfl

/-- Settles O11: a decoded command is well formed and encodes to the word, and encoding is undone by decoding. -/
theorem decodeAndEncodeAgree : Obligations.DecodeAndEncodeAgree := by
  intro w i
  constructor
  · exact fun h => ⟨wellFormed_of_decode h, encode_of_decode h⟩
  · rintro ⟨hwf, rfl⟩
    exact decode_encode hwf

end Sys2Proof.Machine
end

section
/-! The rows of R72's table, the ten legal words, and the words that are illegal (R72, R74). -/

namespace Sys2Proof.Machine

/-- A word selects a row of ANALYZE or LDMASK by mask and match, and its `CH` names a channel (R72). -/
theorem commandWord_eq_iff_mask {op : BitVec 8} {ch : BitVec 2} {w : Word} :
    ch ≠ 3#2 ∧ commandWord op ch = w ↔
      w &&& 0xFFFFFCFF#32 = commandWord op 0#2 ∧ chField w = ch ∧ (ch = 0#2 ∨ ch = 1#2 ∨ ch = 2#2) := by
  have hchannel : ∀ ch : BitVec 2, ch ≠ 3#2 ↔ ch = 0#2 ∨ ch = 1#2 ∨ ch = 2#2 := by decide
  rw [← hchannel, commandWord_eq_iff, and_mask_eq_commandWord_iff]
  tauto

/-- A word selects the row of a command without operand by being its word: the mask keeps every bit (R72). -/
theorem decode_eq_ok_iff_of_wellFormed {w : Word} {i : Instr} (h : i.wellFormed = true) :
    decode w = .ok i ↔ w &&& 0xFFFFFFFF#32 = encode i := by
  have hmask : w &&& 0xFFFFFFFF#32 = w := BitVec.and_allOnes
  rw [hmask, decodeAndEncodeAgree w i, and_iff_right h, eq_comm]

theorem wellFormed_analyze {ch : BitVec 2} : (Instr.analyze ch).wellFormed = true ↔ ch ≠ 3#2 := bne_iff_ne

theorem wellFormed_ldmask {ch : BitVec 2} : (Instr.ldmask ch).wellFormed = true ↔ ch ≠ 3#2 := bne_iff_ne

/-- Settles O12: by O11 a word selects a row exactly when it is the word of that row's command. -/
theorem wordsSelectRowsByMaskAndMatch : Obligations.WordsSelectRowsByMaskAndMatch := by
  intro w
  refine ⟨decode_eq_ok_iff_of_wellFormed rfl, decode_eq_ok_iff_of_wellFormed rfl, fun c => ?_, fun c => ?_,
    decode_eq_ok_iff_of_wellFormed rfl, decode_eq_ok_iff_of_wellFormed rfl⟩
  · rw [decodeAndEncodeAgree, wellFormed_analyze]
    exact commandWord_eq_iff_mask
  · rw [decodeAndEncodeAgree, wellFormed_ldmask]
    exact commandWord_eq_iff_mask

/-- The legal commands, in the order of R72's table. -/
def legalCommands : List Instr :=
  [.nop, .init, .analyze 0#2, .analyze 1#2, .analyze 2#2, .ldmask 0#2, .ldmask 1#2, .ldmask 2#2, .ldpal, .unpack]

theorem mem_legalCommands (i : Instr) : i ∈ legalCommands ↔ i.wellFormed = true := by
  cases i with
  | analyze ch => revert ch; decide
  | ldmask ch => revert ch; decide
  | _ => decide

/-- Settles O13: the words listed are the encodings of the legal commands, and those are the well-formed ones. -/
theorem legalWordsAreTheTenListed : Obligations.LegalWordsAreTheTenListed := by
  intro w
  calc (∃ i, decode w = .ok i)
    _ ↔ ∃ i, i ∈ legalCommands ∧ encode i = w := by simp only [decodeAndEncodeAgree w, mem_legalCommands]
    _ ↔ w ∈ legalCommands.map encode := List.mem_map.symm

theorem decodePlain_error_iff {ch : BitVec 2} {i : Instr} : (∃ e, decodePlain ch i = .error e) ↔ ch ≠ 0#2 := by
  unfold decodePlain
  split <;> simp [*]

theorem decodeChannel_error_iff {ch : BitVec 2} {f : BitVec 2 → Instr} :
    (∃ e, decodeChannel ch f = .error e) ↔ ch = 3#2 := by
  unfold decodeChannel
  split <;> simp [*]

/-- The four clauses of R74, on the fields of the word. -/
theorem decode_error_iff (w : Word) : (∃ e, decode w = .error e) ↔
    (rsvField w ≠ 0#22 ∨ 0x05 < (opField w).toNat ∨
     ((opField w = 0x02#8 ∨ opField w = 0x03#8) ∧ chField w = 3#2) ∨
     ((opField w = 0x00#8 ∨ opField w = 0x01#8 ∨ opField w = 0x04#8 ∨ opField w = 0x05#8) ∧ chField w ≠ 0#2)) := by
  unfold decode
  by_cases hrsv : rsvField w = 0#22
  case neg => simp [hrsv]
  case pos =>
    simp only [hrsv, ne_eq, not_true_eq_false, if_false, false_or]
    have hop : ∀ {n}, (opField w).toNat = n → opField w = BitVec.ofNat 8 n := by
      rintro _ rfl
      simp
    split
    case h_1 h | h_2 h | h_5 h | h_6 h => simp [hop h, decodePlain_error_iff]
    case h_3 h | h_4 h => simp [hop h, decodeChannel_error_iff]
    case h_7 h0 h1 h2 h3 h4 h5 =>
      simp only [imp_false] at h0 h1 h2 h3 h4 h5
      have hlarge : 5 < (opField w).toNat := by omega
      simp [hlarge]

/-- A step that serves a write to `CMD` (R135). -/
theorem step_command {s : State} {w : Word} {rest : List HostEvent} (h : s.pending = .issue (.wr 0x00 w) :: rest) :
    step s = acceptCommand w { s with pending := rest } := step_event h

/-- An illegal word in a block that is not faulted (R135). -/
theorem acceptCommand_illegal {s : State} {w : Word} {e : IllegalWord} (herr : s.err = none)
    (hd : decode w = .error e) : acceptCommand w s = .next (s.fail .badCmd) := by
  simp [acceptCommand, herr, hd]

/-- A faulted block ignores every word but that of INIT (R135). -/
theorem acceptCommand_ignored {s : State} {w : Word} (herr : s.err ≠ none) (hw : w ≠ encode .init) :
    acceptCommand w s = .next s := by
  have hfaulted : s.faulted = true := Option.isSome_iff_ne_none.2 herr
  rw [acceptCommand, if_pos hfaulted]
  exact if_neg hw

/-- Settles O14: the four clauses are the decoder's rejections, and the word of INIT is not among them. -/
theorem illegalWordsRaiseBadCmd : Obligations.IllegalWordsRaiseBadCmd := by
  refine fun w => ⟨decode_error_iff w, fun s rest hpending hillegal => ?_⟩
  obtain ⟨e, hd⟩ := hillegal
  rw [step_command hpending]
  refine ⟨fun herr => acceptCommand_illegal herr hd, fun herr => acceptCommand_ignored herr ?_⟩
  rintro rfl
  cases hd

/-- Settles O15: each word is the encoding of its command. -/
theorem writtenOutWordsDecode : Obligations.WrittenOutWordsDecode :=
  ⟨decode_encode (i := .nop) rfl, decode_encode (i := .init) rfl, decode_encode (i := .analyze 1#2) rfl,
    decode_encode (i := .ldmask 2#2) rfl, decode_encode (i := .ldpal) rfl, decode_encode (i := .unpack) rfl⟩

/-- Settles O34: both commands test for channel 3 before anything else. -/
theorem channelThreeRaisesBadCmd : Obligations.ChannelThreeRaisesBadCmd := by
  intro s f hf
  simp only [List.mem_cons, List.not_mem_nil, or_false] at hf
  obtain rfl | rfl := hf
  · rfl
  · rfl

end Sys2Proof.Machine
end

section
/-! The pseudo-instructions, one lemma each (R78). -/

namespace Sys2Proof.Machine

theorem run_one (s : State) : run 1 s = step s := by
  rw [run]
  cases step s <;> rfl

/-- A step that serves a well-formed command in a block that is not faulted (R77, R135). -/
theorem step_asmCmd {s : State} {i : Instr} {rest : List HostEvent} (hwf : i.wellFormed = true) (herr : s.err = none)
    (h : s.pending = asmCmd i :: rest) : step s = exec i { s with pending := rest } :=
  (step_command h).trans (acceptCommand_legal herr (decode_encode hwf))

/-- `ANALYZEI`: the immediate value is written to `ARG`, then ANALYZE runs. -/
theorem run_analyzeImm {s : State} {rest : List HostEvent} {c : BitVec 2} {imm : Word} (hc : c ≠ 3#2)
    (herr : s.err = none) (h : s.pending = analyzeImm c imm ++ rest) :
    run 2 s = exec (.analyze c) { s with pending := rest, arg := imm } := by
  have hwrite : step s = .next { s with pending := asmCmd (.analyze c) :: rest, arg := imm } := step_event h
  rw [run_succ 1 hwrite, run_one]
  exact step_asmCmd (wellFormed_analyze.2 hc) herr rfl

/-- The word of `SETCFG` does not wrap: its four summands lie in fields of their own (R24). -/
theorem cfgWord_toNat (bpp : BitVec 16) (comp : BitVec 2) (es4 bmiu : Bool) :
    (cfgWord bpp comp es4 bmiu).toNat =
      bpp.toNat + comp.toNat * 2 ^ 16 + (if es4 then 1 else 0) * 2 ^ 24 + (if bmiu then 1 else 0) * 2 ^ 25 := by
  have hbpp := bpp.isLt
  have hcomp := comp.isLt
  rw [cfgWord, BitVec.toNat_ofNat, Nat.mod_eq_of_lt]
  split <;> split <;> omega

theorem cfgWord_fields (bpp : BitVec 16) (comp : BitVec 2) (es4 bmiu : Bool) :
    (cfgWord bpp comp es4 bmiu).extractLsb' 0 16 = bpp ∧ (cfgWord bpp comp es4 bmiu).extractLsb' 16 2 = comp ∧
    (cfgWord bpp comp es4 bmiu).getLsbD 24 = es4 ∧ (cfgWord bpp comp es4 bmiu).getLsbD 25 = bmiu := by
  have hbpp := bpp.isLt
  have hcomp := comp.isLt
  have hword := cfgWord_toNat bpp comp es4 bmiu
  have hbit : ∀ b : Bool, (if b then 1 else 0) ≤ 1 := by decide
  have hes4 := hbit es4
  have hbmiu := hbit bmiu
  refine ⟨BitVec.eq_of_toNat_eq ?_, BitVec.eq_of_toNat_eq ?_, getLsbD_of_div_mod (by omega),
    getLsbD_of_div_mod (by omega)⟩
  · rw [BitVec.extractLsb'_toNat, Nat.shiftRight_zero]
    omega
  · rw [BitVec.extractLsb'_toNat, Nat.shiftRight_eq_div_pow]
    omega

/-- `SETCFG`: one write to `CFG`, whose word holds the four operands in the four fields. -/
theorem step_setCfg {s : State} {rest : List HostEvent} {bpp : BitVec 16} {comp : BitVec 2} {es4 bmiu : Bool}
    (h : s.pending = setCfg bpp comp es4 bmiu ++ rest) :
    ∃ t, step s = .next t ∧ t = { s with pending := rest, cfg := t.cfg } ∧
      t.bpp = bpp ∧ t.comp = comp ∧ t.es4 = es4 ∧ t.bmiu = bmiu := by
  obtain ⟨t, hstep, hframe, hbpp, hcomp, hes4, hbmiu, -, -⟩ := cfgWriteStoresItsFields s rest _ h
  obtain ⟨hbpp', hcomp', hes4', hbmiu'⟩ := cfgWord_fields bpp comp es4 bmiu
  exact ⟨t, hstep, hframe, hbpp.trans hbpp', hcomp.trans hcomp', hes4.trans hes4', hbmiu.trans hbmiu'⟩

/-- The little-endian word that lies in `SRC` at `a` (R92). -/
def State.srcWord (s : State) (a : Nat) : Word :=
  leWord (s.srcByte a) (s.srcByte (a + 1)) (s.srcByte (a + 2)) (s.srcByte (a + 3))

/-- A cursor that is not beyond `SRC_LEN` does not wrap (R92). -/
theorem ofNat_toNat_of_le_srcLen {s : State} {p : Nat} (h : p ≤ s.srcLen.toNat) : (BitVec.ofNat 32 p).toNat = p := by
  have hlen := s.srcLen.isLt
  rw [BitVec.toNat_ofNat, Nat.mod_eq_of_lt (by omega)]

/-- LDMASK with four bytes left at the cursor `p`: the word there is analyzed into the channel (R92, R93). -/
theorem exec_ldmask_fits {s : State} {c : BitVec 2} {p : Nat} (hc : c ≠ 3#2) (hpos : s.pos.toNat = p)
    (hfits : p + 4 ≤ s.srcLen.toNat) :
    exec (.ldmask c) s =
      .next (State.setChannel c (recordOf (s.srcWord p)) { s with pos := BitVec.ofNat 32 (p + 4) }) := by
  subst hpos
  rw [exec, execLdmask, if_neg hc, readU32LE_fits hfits]
  rfl

/-- A run that begins with such an LDMASK. -/
theorem run_ldmask {s : State} {c : BitVec 2} {p : Nat} {rest : List HostEvent} (n : Nat) (hc : c ≠ 3#2)
    (herr : s.err = none) (hpos : s.pos.toNat = p) (hfits : p + 4 ≤ s.srcLen.toNat)
    (h : s.pending = asmCmd (.ldmask c) :: rest) :
    run (n + 1) s = run n
      (State.setChannel c (recordOf (s.srcWord p)) { s with pending := rest, pos := BitVec.ofNat 32 (p + 4) }) :=
  run_succ n ((step_asmCmd (wellFormed_ldmask.2 hc) herr h).trans (exec_ldmask_fits hc hpos hfits))

/-- `LDMASKS`: three runs of LDMASK, each at the cursor the one before it left. -/
theorem run_ldMasks {s : State} {rest : List HostEvent} (herr : s.err = none)
    (hfits : s.pos.toNat + 12 ≤ s.srcLen.toNat) (h : s.pending = ldMasks ++ rest) :
    run 3 s = .next
      { s with
        pending := rest
        pos := BitVec.ofNat 32 (s.pos.toNat + 12)
        chR := recordOf (s.srcWord s.pos.toNat)
        chG := recordOf (s.srcWord (s.pos.toNat + 4))
        chB := recordOf (s.srcWord (s.pos.toNat + 8)) } := by
  have hgreen : s.pos.toNat + 4 + 4 ≤ s.srcLen.toNat := by omega
  have hblue : s.pos.toNat + 8 + 4 ≤ s.srcLen.toNat := by omega
  have hcursor : ∀ p, p ≤ s.srcLen.toNat → (BitVec.ofNat 32 p).toNat = p := fun _ => ofNat_toNat_of_le_srcLen
  calc run 3 s
    _ = run 2 _ := run_ldmask 2 (c := 0#2) (by decide) herr rfl (by omega) h
    _ = run 1 _ := run_ldmask 1 (c := 1#2) (by decide) herr (hcursor _ (by omega)) hgreen rfl
    _ = run 0 _ := run_ldmask 0 (c := 2#2) (by decide) herr (hcursor _ (by omega)) hblue rfl
    _ = .next _ := run_zero _

/-- Reads of the output window return their bytes in order and change nothing else (R134). -/
theorem run_outReads (addrs : List Word) {s : State} {rest : List HostEvent}
    (h : s.pending = addrs.map (fun a => .issue (.outrd a)) ++ rest) :
    run addrs.length s = .next
      { s with pending := rest, replies := s.replies ++ addrs.map (fun a => .byte (outRead a s)) } := by
  induction addrs generalizing s with
  | nil =>
    rw [List.map_nil, List.nil_append] at h
    rw [List.length_nil, run_zero, List.map_nil, List.append_nil, ← h]
  | cons a addrs ih =>
    have hfirst : step s = .next
        { s with
          pending := addrs.map (fun a => .issue (.outrd a)) ++ rest, replies := s.replies ++ [.byte (outRead a s)] } :=
      step_event h
    rw [List.length_cons, run_succ _ hfirst, ih rfl, List.append_assoc]
    rfl

/-- A byte of the image `k` places above `addr`: below `OUT_LEN` the address does not wrap. -/
theorem outRead_add {s : State} {addr k : Word} (h : addr.toNat + k.toNat < s.outLen.toNat) :
    outRead (addr + k) s = s.outByte (addr.toNat + k.toNat) := by
  have haddr : (addr + k).toNat = addr.toNat + k.toNat := BitVec.toNat_add_of_lt (h.trans s.outLen.isLt)
  rw [outRead, haddr, if_pos h]

/-- `OUTRD4`: four reads, of one pixel when it lies below `OUT_LEN`. -/
theorem run_outRd4 {s : State} {rest : List HostEvent} {addr : Word} (h : s.pending = outRd4 addr ++ rest) :
    ∃ b0 b1 b2 b3, run 4 s =
      .next { s with pending := rest, replies := s.replies ++ [.byte b0, .byte b1, .byte b2, .byte b3] } ∧
      (addr.toNat + 3 < s.outLen.toNat →
        b0 = s.outByte addr.toNat ∧ b1 = s.outByte (addr.toNat + 1) ∧ b2 = s.outByte (addr.toNat + 2) ∧
        b3 = s.outByte (addr.toNat + 3)) := by
  refine ⟨_, _, _, _, run_outReads [addr, addr + 1#32, addr + 2#32, addr + 3#32] h, fun hlen => ?_⟩
  have hbelow : ∀ k, k ≤ 3 → addr.toNat + k < s.outLen.toNat := by omega
  exact ⟨if_pos (hbelow 0 (by decide)), outRead_add (k := 1#32) (hbelow 1 (by decide)),
    outRead_add (k := 2#32) (hbelow 2 (by decide)), outRead_add (k := 3#32) hlen⟩

/-- Settles O29: each pseudo-instruction's list of events, run step by step. -/
theorem pseudoInstructionsExpand : Obligations.PseudoInstructionsExpand := by
  intro s rest
  refine ⟨fun c imm => run_analyzeImm, fun bpp comp es4 bmiu => step_setCfg, fun herr hfits hpending => ?_,
    fun addr => run_outRd4⟩
  exact ⟨_, run_ldMasks herr hfits hpending, rfl, ofNat_toNat_of_le_srcLen hfits, rfl, rfl, rfl⟩

end Sys2Proof.Machine
end

section
/-! The analysis function (R90): the scans from either end find the outermost set bits of the mask, which alone decide
what `analyze` gives. -/

namespace Sys2Proof.Machine

/-- `lo` and `hi` are the least and the greatest set bit of `v` (R90). -/
structure OutermostBits (v : Word) (lo hi : Nat) : Prop where
  low : v.getLsbD lo = true
  high : v.getLsbD hi = true
  between : ∀ i, v.getLsbD i = true → lo ≤ i ∧ i ≤ hi

namespace OutermostBits
variable {v : Word} {lo hi lo' hi' : Nat}

theorem low_le_high (h : OutermostBits v lo hi) : lo ≤ hi := (h.between hi h.high).1

theorem high_le (h : OutermostBits v lo hi) : hi ≤ 31 := Nat.le_of_lt_succ (BitVec.lt_of_getLsbD h.high)

theorem ne_zero (h : OutermostBits v lo hi) : v ≠ 0#32 := by
  rintro rfl
  simpa using h.low

theorem unique (h : OutermostBits v lo hi) (h' : OutermostBits v lo' hi') : lo = lo' ∧ hi = hi' :=
  ⟨Nat.le_antisymm (h.between _ h'.low).1 (h'.between _ h.low).1,
    Nat.le_antisymm (h'.between _ h.high).2 (h.between _ h'.high).2⟩

end OutermostBits

/-- In a list that rises in the order `R`, the element a search finds comes before every other one that qualifies. -/
theorem rel_of_find?_eq_some {α : Type} {R : α → α → Prop} {l : List α} {p : α → Bool} {a b : α} (hl : l.Pairwise R)
    (hrefl : R a a) (ha : l.find? p = some a) (hb : b ∈ l) (hp : p b = true) : R a b := by
  obtain ⟨-, front, back, rfl, hfront⟩ := List.find?_eq_some_iff_append.1 ha
  have hback : ∀ c ∈ back, R a c := (List.pairwise_cons.1 (List.pairwise_append.1 hl).2.1).1
  obtain hb | hb := List.mem_append.1 hb
  · exact absurd hp (by simpa using hfront b hb)
  · obtain rfl | hb := List.mem_cons.1 hb
    · exact hrefl
    · exact hback b hb

/-- A scan of all 32 bits in the order `R` stops at the first set bit in that order (R90). -/
theorem scan_spec {v : Word} {l : List Nat} {R : Nat → Nat → Prop} (hv : v ≠ 0#32) (hl : l.Pairwise R)
    (hrefl : ∀ i, R i i) (hall : ∀ i, i < 32 → i ∈ l) :
    v.getLsbD ((l.find? (fun i => v.getLsbD i)).getD 0) = true ∧
    ∀ i, v.getLsbD i = true → R ((l.find? (fun i => v.getLsbD i)).getD 0) i := by
  cases hfind : l.find? (fun i => v.getLsbD i) with
  | none =>
    refine absurd (BitVec.eq_of_getLsbD_eq fun i hi => ?_) hv
    simpa using List.find?_eq_none.1 hfind i (hall i hi)
  | some a =>
    exact ⟨List.find?_some hfind, fun i hi =>
      rel_of_find?_eq_some hl (hrefl a) hfind (hall i (BitVec.lt_of_getLsbD hi)) hi⟩

/-- The upward and the downward scan of a mask that is not zero find its outermost set bits. -/
theorem outermostBits_of_ne_zero {v : Word} (hv : v ≠ 0#32) :
    OutermostBits v (lowestSetBit v) (highestSetBit v) := by
  obtain ⟨hlow, hleast⟩ := scan_spec (R := (· ≤ ·)) hv List.pairwise_le_range Nat.le_refl
    (fun i hi => List.mem_range.2 hi)
  obtain ⟨hhigh, hgreatest⟩ := scan_spec (R := (· ≥ ·)) hv (List.pairwise_reverse.2 List.pairwise_le_range) Nat.le_refl
    (fun i hi => List.mem_reverse.2 (List.mem_range.2 hi))
  exact ⟨hlow, hhigh, fun i hi => ⟨hleast i hi, hgreatest i hi⟩⟩

/-- What `analyze` gives depends on the outermost set bits alone. -/
theorem analyze_of_outermostBits {v : Word} {lo hi : Nat} (h : OutermostBits v lo hi) :
    analyze v = (BitVec.ofNat 32 lo, BitVec.ofNat 32 (2 ^ (hi - lo + 1) - 1)) := by
  obtain ⟨rfl, rfl⟩ := h.unique (outermostBits_of_ne_zero h.ne_zero)
  exact if_neg h.ne_zero

theorem analyze_zero : analyze 0#32 = (0#32, 255#32) := if_pos rfl

/-- Neither number wraps: the range has at most 32 bits. -/
theorem analyze_toNat {v : Word} {lo hi : Nat} (h : OutermostBits v lo hi) :
    (analyze v).1.toNat = lo ∧ (analyze v).2.toNat = 2 ^ (hi - lo + 1) - 1 := by
  have hhi := h.high_le
  have hle := h.low_le_high
  have hpow : 2 ^ (hi - lo + 1) ≤ 2 ^ 32 := Nat.pow_le_pow_right (by decide) (by omega)
  have hpos := Nat.two_pow_pos (hi - lo + 1)
  rw [analyze_of_outermostBits h]
  exact ⟨Nat.mod_eq_of_lt (by omega), Nat.mod_eq_of_lt (by omega)⟩

/-- Settles O31: the two scans find the least and the greatest set bit. -/
theorem analyzeFunction : Obligations.AnalyzeFunction := by
  refine ⟨analyze_zero, fun v hv => ?_⟩
  have h := outermostBits_of_ne_zero hv
  exact ⟨_, _, h.low_le_high, h.high_le, h.low, h.high, fun i _ => h.between i, analyze_toNat h⟩

/-- The range is one less than a power of two that is not 1. -/
theorem analyze_range_succ (v : Word) : ∃ k, (analyze v).2.toNat + 1 = 2 ^ (k + 1) := by
  by_cases hv : v = 0#32
  · exact ⟨7, by rw [hv, analyze_zero]; rfl⟩
  · have hrange := (analyze_toNat (outermostBits_of_ne_zero hv)).2
    exact ⟨highestSetBit v - lowestSetBit v, by rw [hrange, Nat.sub_add_cancel Nat.one_le_two_pow]⟩

/-- The range is `2 ^ 32 - 1` exactly when the outermost set bits are 0 and 31. -/
theorem analyze_range_eq_max_iff {v : Word} {lo hi : Nat} (h : OutermostBits v lo hi) :
    (analyze v).2 = 0xFFFFFFFF#32 ↔ lo = 0 ∧ hi = 31 := by
  have hhi := h.high_le
  have hpos := Nat.two_pow_pos (hi - lo + 1)
  calc (analyze v).2 = 0xFFFFFFFF#32
    _ ↔ 2 ^ (hi - lo + 1) - 1 = 2 ^ 32 - 1 := by rw [← BitVec.toNat_inj, (analyze_toNat h).2]; rfl
    _ ↔ 2 ^ (hi - lo + 1) = 2 ^ 32 := by omega
    _ ↔ hi - lo + 1 = 32 := Nat.pow_right_inj (by decide)
    _ ↔ lo = 0 ∧ hi = 31 := by omega

/-- Bits 0 and 31 are set exactly when they are the outermost ones. -/
theorem OutermostBits.eq_ends_iff {v : Word} {lo hi : Nat} (h : OutermostBits v lo hi) :
    lo = 0 ∧ hi = 31 ↔ v.getLsbD 0 = true ∧ v.getLsbD 31 = true := by
  constructor
  · rintro ⟨rfl, rfl⟩
    exact ⟨h.low, h.high⟩
  · rintro ⟨h0, h31⟩
    exact ⟨Nat.le_zero.1 (h.between 0 h0).1, Nat.le_antisymm h.high_le (h.between 31 h31).2⟩

/-- Settles O32: each property is read off the outermost set bits. -/
theorem analyzeFunctionProperties : Obligations.AnalyzeFunctionProperties := by
  refine ⟨fun v => ?_, fun v => ?_, fun v w lo hi hvlo hvhi hwlo hwhi hbetween => ?_, by decide, by decide, by decide⟩
  · obtain ⟨k, hk⟩ := analyze_range_succ v
    have hpos := Nat.two_pow_pos k
    exact ⟨by omega, k + 1, hk⟩
  · by_cases hv : v = 0#32
    · subst hv; decide
    · have h := outermostBits_of_ne_zero hv
      exact (analyze_range_eq_max_iff h).trans h.eq_ends_iff
  · have hv : OutermostBits v lo hi := ⟨hvlo, hvhi, fun i hi => hbetween i (.inl hi)⟩
    have hw : OutermostBits w lo hi := ⟨hwlo, hwhi, fun i hi => hbetween i (.inr hi)⟩
    rw [analyze_of_outermostBits hv, analyze_of_outermostBits hw]

end Sys2Proof.Machine
end

section
/-! The channel records under ANALYZE and LDMASK (R91 to R94). -/

namespace Sys2Proof.Machine

theorem channel_setChannel_self {c : BitVec 2} (hc : c ≠ 3#2) (r : ChannelRecord) (s : State) :
    State.channel c (s.setChannel c r) = r := by
  obtain rfl | rfl | rfl : c = 0#2 ∨ c = 1#2 ∨ c = 2#2 := by revert c; decide
  all_goals rfl

theorem channel_setChannel_of_ne {c d : BitVec 2} (hd : d ≠ c) (r : ChannelRecord) (s : State) :
    State.channel d (s.setChannel c r) = State.channel d s := by
  simp only [State.channel, setChannel_chR, setChannel_chG, setChannel_chB]
  split_ifs <;> simp_all

/-- The second of two writes to a channel stands. -/
theorem setChannel_setChannel (c : BitVec 2) (r r' : ChannelRecord) (s : State) :
    (s.setChannel c r).setChannel c r' = s.setChannel c r' := by
  unfold State.setChannel
  split_ifs <;> rfl

/-- ANALYZE of a channel there is (R91). -/
theorem exec_analyze {c : BitVec 2} (hc : c ≠ 3#2) (s : State) :
    exec (.analyze c) s = .next (s.setChannel c (recordOf s.arg)) := if_neg hc

/-- LDMASK with fewer than four bytes left (R92, R93). -/
theorem exec_ldmask_short {s : State} {c : BitVec 2} (hc : c ≠ 3#2) (hshort : s.srcLen.toNat < s.pos.toNat + 4) :
    exec (.ldmask c) s = .next (s.fail .ioError) := by
  rw [exec, execLdmask, if_neg hc, readU32LE_short hshort]

/-- Settles O33: the record comes from `ARG`, which ANALYZE leaves as it is. -/
theorem analyzeWritesItsRecord : Obligations.AnalyzeWritesItsRecord := by
  intro s
  have hred : ∀ (v : Word) (r : ChannelRecord), recordOf v = r → s.arg = v →
      exec (.analyze 0#2) s = .next { s with chR := r } := by
    rintro v r rfl rfl
    rfl
  refine ⟨rfl, rfl, rfl, fun c t hc h => ?_, hred _ _ (by decide), hred _ _ (by decide), hred _ _ (by decide),
    hred _ _ (by decide)⟩
  rw [exec_analyze hc] at h
  obtain rfl := Host.Outcome.next.inj h
  rw [exec_analyze hc, setChannel_arg, setChannel_setChannel]

/-- Settles O35: the two sides of the bound of the cursor read. -/
theorem ldmaskReadsAndAnalyzes : Obligations.LdmaskReadsAndAnalyzes := by
  intro s c hc
  refine ⟨fun hfits => ⟨_, _, exec_ldmask_fits hc rfl hfits, leWord_toNat _ _ _ _, ?_, channel_setChannel_self hc _ _,
    fun d hd => channel_setChannel_of_ne hd _ _, ?_⟩, exec_ldmask_short hc⟩
  · rw [setChannel_pos]
    exact ofNat_toNat_of_le_srcLen hfits
  · rw [setChannel_pos]
    exact setChannel_frame c _ _

/-- ANALYZE and LDMASK fail, or write one analyzed record, LDMASK with the cursor moved (R91, R93). -/
theorem exec_analyzer_cases {s t : State} {c : BitVec 2}
    (h : exec (.analyze c) s = .next t ∨ exec (.ldmask c) s = .next t) :
    (∃ code, t = s.fail code) ∨
    c ≠ 3#2 ∧ ∃ (v p : Word), t = State.setChannel c (recordOf v) { s with pos := p } := by
  by_cases hc : c = 3#2
  · subst hc
    obtain h | h := h <;> exact .inl ⟨_, (Host.Outcome.next.inj h).symm⟩
  obtain h | h := h
  · rw [exec_analyze hc] at h
    exact .inr ⟨hc, _, s.pos, (Host.Outcome.next.inj h).symm⟩
  · obtain hfits | hshort := le_or_gt (s.pos.toNat + 4) s.srcLen.toNat
    · rw [exec_ldmask_fits hc rfl hfits] at h
      exact .inr ⟨hc, _, _, (Host.Outcome.next.inj h).symm⟩
    · rw [exec_ldmask_short hc hshort] at h
      exact .inl ⟨_, (Host.Outcome.next.inj h).symm⟩

/-- Settles O9: a failure leaves the records alone, a write makes one of them an analyzed record. -/
theorem analyzerCommandsKeepChannelInvariant : Obligations.AnalyzerCommandsKeepChannelInvariant := by
  intro s t c h
  obtain ⟨code, rfl⟩ | ⟨hc, v, p, rfl⟩ := exec_analyzer_cases h
  · exact ⟨fun _ _ => rfl, .inl rfl, id⟩
  · exact ⟨fun d hd => channel_setChannel_of_ne hd _ _, .inr ⟨v, channel_setChannel_self hc _ _⟩,
      fun hs => channelsAnalyzed_setChannel (s := { s with pos := p }) hs c v⟩

end Sys2Proof.Machine
end

section
/-! The palette after LDPAL: copied, left by a failure, or dropped (R100). -/

namespace Sys2Proof.Machine

/-- The condition of LDPAL on the registers (R100). -/
theorem State.copiesPalette_iff (s : State) :
    s.copiesPalette = true ↔ s.bpp.toNat ≤ 8 ∧ 0 < s.palSize.toNat ∧ s.bmiu = false := by
  simp [State.copiesPalette, and_assoc]

/-- The check of the capacity comes first (R100, R144). -/
theorem paletteFailure_large {s : State} (hlarge : s.palCap < s.palSize.toNat) :
    paletteFailure s = some .outOfMemory := if_pos hlarge

theorem paletteFailure_short {s : State} (hfits : s.palSize.toNat ≤ s.palCap)
    (hshort : s.srcLen.toNat < s.pos.toNat + s.palSize.toNat) : paletteFailure s = some .fileInvalid := by
  rw [paletteFailure, if_neg (Nat.not_lt.2 hfits), if_pos hshort]

theorem paletteFailure_fits {s : State} (hfits : s.palSize.toNat ≤ s.palCap)
    (hread : s.pos.toNat + s.palSize.toNat ≤ s.srcLen.toNat) : paletteFailure s = none := by
  rw [paletteFailure, if_neg (Nat.not_lt.2 hfits), if_neg (Nat.not_lt.2 hread)]

theorem exec_ldpal_fail {s : State} {code : FailCode} (hc : s.copiesPalette = true)
    (hf : paletteFailure s = some code) : exec .ldpal s = .next (s.fail code) := by
  rw [exec, execLdpal, if_pos hc, hf]

theorem exec_ldpal_copy {s : State} (hc : s.copiesPalette = true) (hf : paletteFailure s = none) :
    exec .ldpal s = .next (copyPalette s) := by
  rw [exec, execLdpal, if_pos hc, hf]

theorem exec_ldpal_drop {s : State} (hc : ¬ s.copiesPalette = true) :
    exec .ldpal s = .next { s with palLen := 0#32 } := if_neg hc

/-- From `PAL_SIZE` on a copy leaves `PAL` as it was (R100). -/
theorem copyPalette_palByte_of_le (s : State) {a : Nat} (ha : s.palSize.toNat ≤ a) :
    (copyPalette s).palByte a = s.palByte a := by
  have hbeyond : ¬ (0 ≤ a ∧ a < 0 + (s.srcBytes s.pos.toNat s.palSize.toNat).length) := by
    rw [State.srcBytes_length]
    omega
  rw [State.palByte, copyPalette_pal, Memory.byteAt_writeBytes, if_neg hbeyond, State.palByte]

/-- Settles O36: the condition of LDPAL, then its two checks in their order. -/
theorem ldpalFillsThePalette : Obligations.LdpalFillsThePalette := by
  intro s
  rw [← s.copiesPalette_iff]
  refine ⟨fun hc => ⟨fun hfits hread => ?copied, fun hlarge => ?large, fun hfits hshort => ?short⟩, exec_ldpal_drop⟩
  case copied =>
    exact ⟨copyPalette s, exec_ldpal_copy hc (paletteFailure_fits hfits hread), rfl, ofNat_toNat_of_le_srcLen hread,
      fun k hk => copyPalette_palByte s hk, fun a ha => copyPalette_palByte_of_le s ha⟩
  case large => exact exec_ldpal_fail hc (paletteFailure_large hlarge)
  case short => exact exec_ldpal_fail hc (paletteFailure_short hfits hshort)

end Sys2Proof.Machine
end

section
/-! The geometry of UNPACK: the skip rule and the advance of the row cursor (R111 to R113, R118). -/

namespace Sys2Proof.Machine

/-- In both branches the skip is the whole bytes of the padding (R112). -/
theorem skipBytes_eq (p : Nat) : skipBytes p = p / 8 := by
  unfold skipBytes
  split
  · rfl
  · omega

/-- Settles O43: the branches of the definition, and `skipBytes_eq`. -/
theorem skipRuleBranches : Obligations.SkipRuleBranches :=
  fun p => ⟨fun heven => if_pos heven, fun hodd => if_neg hodd, skipBytes_eq p⟩

/-- The advance written out from the registers is the model's (R113). -/
theorem rowStep_eq (s : State) : rowStep s = s.rowAdvance := rfl

/-- The bytes that hold `w` bits fit into `n` bytes exactly when the bits do (R8). -/
theorem ceil8_le_iff {w n : Nat} : ceil8 w ≤ n ↔ w ≤ 8 * n := by
  unfold ceil8
  omega

/-- When check 4 passes, the skip is what the declared row has beyond its pixels (R118 item 1). -/
theorem skipBytes_scanPadding {s : State} (hrow : s.width.toNat ≤ 8 * s.declaredRow) :
    skipBytes s.scanPadding = s.declaredRow - ceil8 s.width.toNat := by
  rw [skipBytes_eq, State.scanPadding, ceil8]
  omega

/-- So the row cursor advances by the declared row (R118 item 2). -/
theorem rowAdvance_eq_declaredRow {s : State} (hrow : s.width.toNat ≤ 8 * s.declaredRow) :
    s.rowAdvance = s.declaredRow := by
  rw [State.rowAdvance, skipBytes_scanPadding hrow, Nat.add_sub_cancel' (ceil8_le_iff.2 hrow)]

theorem rowCursor_eq {s : State} (hrow : s.width.toNat ≤ 8 * s.declaredRow) (i : Nat) :
    s.rowCursor i = s.dataOffset.toNat + i * s.declaredRow := by
  rw [State.rowCursor, rowAdvance_eq_declaredRow hrow]

/-- After the last row the cursor is still within the file (R117). -/
theorem rowCursor_height_le_fileSize {s : State} (hoffset : s.dataOffset.toNat ≤ s.fileSize.toNat)
    (hrow : s.width.toNat ≤ 8 * s.declaredRow) : s.rowCursor s.height.toNat ≤ s.fileSize.toNat := by
  have hrows : s.height.toNat * s.declaredRow ≤ s.fileSize.toNat - s.dataOffset.toNat := Nat.mul_div_le _ _
  rw [rowCursor_eq hrow]
  omega

/-- An image without columns has no byte (R118 item 6). -/
theorem imageBytes_of_width_zero {s : State} (h : s.width = 0#32) : s.imageBytes = [] := by
  apply List.eq_nil_of_length_eq_zero
  simp [h]

/-- Settles O42: every clause follows from the advance being the declared row. -/
theorem rowAdvanceIsDeclaredRow : Obligations.RowAdvanceIsDeclaredRow := by
  intro s _ hoffset hrow
  have hadvance := rowAdvance_eq_declaredRow hrow
  refine ⟨ceil8_le_iff.2 hrow, skipBytes_eq _, skipBytes_scanPadding hrow, hadvance, hadvance, rowCursor_eq hrow,
    rowCursor_height_le_fileSize hoffset hrow, ?_, imageBytes_of_width_zero⟩
  rw [rowCursor_eq hrow]

end Sys2Proof.Machine
end

section
/-! The seven checks of UNPACK, one lemma a check (R110), and what a failure and a completed UNPACK answer. -/

namespace Sys2Proof.Machine

variable {s : State}

theorem State.palPresent_iff : s.palPresent = true ↔ s.palLen ≠ 0#32 := bne_iff_ne

theorem State.palPresent_eq_false (h : s.palLen = 0#32) : s.palPresent = false := bne_eq_false_iff_eq.2 h

/-! A check that fails after those before it passed decides the code. -/

theorem unpackFailure_unsupported (h : s.bpp ≠ 1#16 ∨ s.comp ≠ 0#2) :
    unpackFailure s = some .fileNotSupported := if_pos h

theorem unpackFailure_height (hbpp : s.bpp = 1#16) (hcomp : s.comp = 0#2) (h : s.height = 0#32) :
    unpackFailure s = some .fileInvalid := by
  simp [unpackFailure, hbpp, hcomp, h]

theorem unpackFailure_offset (hbpp : s.bpp = 1#16) (hcomp : s.comp = 0#2) (hheight : s.height ≠ 0#32)
    (h : s.fileSize.toNat < s.dataOffset.toNat) : unpackFailure s = some .fileInvalid := by
  simp [unpackFailure, hbpp, hcomp, hheight, h]

theorem unpackFailure_row (hbpp : s.bpp = 1#16) (hcomp : s.comp = 0#2) (hheight : s.height ≠ 0#32)
    (hoffset : s.dataOffset.toNat ≤ s.fileSize.toNat) (h : 8 * s.declaredRow < s.width.toNat) :
    unpackFailure s = some .fileInvalid := by
  simp [unpackFailure, hbpp, hcomp, hheight, Nat.not_lt.2 hoffset, h]

/-- Past checks 1 to 4 the last three decide (R110). -/
theorem unpackFailure_of_geometry (h : GeometryAccepts s) :
    unpackFailure s =
      if s.palPresent ∧ s.palLen.toNat < 2 * s.elementSize then some .fileInvalid
      else if s.outCap < 4 * s.width.toNat * s.height.toNat then some .outOfMemory
      else if 0 < s.width.toNat ∧ s.srcLen.toNat < s.rowCursor (s.height.toNat - 1) + ceil8 s.width.toNat then
        some .ioError
      else none := by
  obtain ⟨hbpp, hcomp, hheight, hoffset, (hrow : s.width.toNat ≤ 8 * s.declaredRow)⟩ := h
  have hformat : ¬ (s.bpp ≠ 1#16 ∨ s.comp ≠ 0#2) := by simp [hbpp, hcomp]
  rw [unpackFailure, if_neg hformat, if_neg hheight, if_neg (Nat.not_lt.2 hoffset), if_neg (Nat.not_lt.2 hrow)]

theorem unpackFailure_palette (hgeometry : GeometryAccepts s) (hpresent : s.palLen ≠ 0#32)
    (hshort : s.palLen.toNat < 2 * s.elementSize) : unpackFailure s = some .fileInvalid := by
  rw [unpackFailure_of_geometry hgeometry, if_pos ⟨State.palPresent_iff.2 hpresent, hshort⟩]

/-- Check 5 passes without a palette, and with one of two entries. -/
theorem not_palette_short (h : s.palLen = 0#32 ∨ 2 * s.elementSize ≤ s.palLen.toNat) :
    ¬ (s.palPresent = true ∧ s.palLen.toNat < 2 * s.elementSize) := by
  rintro ⟨hpresent, hshort⟩
  obtain hnone | hentries := h
  · exact State.palPresent_iff.1 hpresent hnone
  · omega

theorem unpackFailure_capacity (hgeometry : GeometryAccepts s)
    (hpalette : s.palLen = 0#32 ∨ 2 * s.elementSize ≤ s.palLen.toNat)
    (hlarge : s.outCap < 4 * s.width.toNat * s.height.toNat) : unpackFailure s = some .outOfMemory := by
  rw [unpackFailure_of_geometry hgeometry, if_neg (not_palette_short hpalette), if_pos hlarge]

theorem unpackFailure_source (hgeometry : GeometryAccepts s)
    (hpalette : s.palLen = 0#32 ∨ 2 * s.elementSize ≤ s.palLen.toNat)
    (hcapacity : 4 * s.width.toNat * s.height.toNat ≤ s.outCap) (hwidth : 0 < s.width.toNat)
    (hshort : s.srcLen.toNat < s.rowCursor (s.height.toNat - 1) + ceil8 s.width.toNat) :
    unpackFailure s = some .ioError := by
  rw [unpackFailure_of_geometry hgeometry, if_neg (not_palette_short hpalette), if_neg (Nat.not_lt.2 hcapacity),
    if_pos ⟨hwidth, hshort⟩]

/-- The conditions written out from the registers pass the model's own check (R110). -/
theorem unpackFailure_of_accepts (h : UnpackAccepts s) : unpackFailure s = none := by
  obtain ⟨hgeometry, hpalette, hcapacity,
    (hsource : _ ∨ s.rowCursor (s.height.toNat - 1) + ceil8 s.width.toNat ≤ s.srcLen.toNat)⟩ := h
  rw [unpackFailure_of_geometry hgeometry, if_neg (not_palette_short hpalette), if_neg (Nat.not_lt.2 hcapacity),
    if_neg (by omega)]

theorem exec_unpack_fail {code : FailCode} (hf : unpackFailure s = some code) :
    exec .unpack s = .next (s.fail code) := by
  rw [exec, execUnpack, hf]

theorem exec_unpack_image (hf : unpackFailure s = none) : exec .unpack s = .next (unpackImage s) := by
  rw [exec, execUnpack, hf]

end Sys2Proof.Machine
end

section
/-! Which outcome UNPACK has: the checks in their order, and the depths that are refused (R110, R119). -/

namespace Sys2Proof.Machine

/-- Settles O40: each clause is the lemma of its check. -/
theorem unpackChecksInOrder : Obligations.UnpackChecksInOrder := by
  intro s
  refine ⟨fun h => exec_unpack_fail (unpackFailure_unsupported h), fun hbpp hcomp =>
    ⟨fun h => exec_unpack_fail (unpackFailure_height hbpp hcomp h), fun hheight =>
    ⟨fun h => exec_unpack_fail (unpackFailure_offset hbpp hcomp hheight h), ?_⟩⟩⟩
  rintro hoffset S rfl
  refine ⟨fun h => exec_unpack_fail (unpackFailure_row hbpp hcomp hheight hoffset h), fun hrow => ?_⟩
  have hgeometry : GeometryAccepts s := ⟨hbpp, hcomp, hheight, hoffset, hrow⟩
  refine ⟨fun hpresent h => exec_unpack_fail (unpackFailure_palette hgeometry hpresent h), fun hpalette =>
    ⟨fun h => exec_unpack_fail (unpackFailure_capacity hgeometry hpalette h), fun hcapacity =>
    ⟨fun hwidth h => ?source, fun hsource => ?image⟩⟩⟩
  case source =>
    have hcolumns : 0 < s.width.toNat := Nat.pos_of_ne_zero (BitVec.toNat_ne.1 hwidth)
    exact exec_unpack_fail (unpackFailure_source hgeometry hpalette hcapacity hcolumns h)
  case image =>
    have hsource := hsource.imp_left (congrArg BitVec.toNat)
    exact exec_unpack_image (unpackFailure_of_accepts ⟨hgeometry, hpalette, hcapacity, hsource⟩)

/-- Settles O41: check 1 is the first, and a failure leaves no byte of `OUT` to be read. -/
theorem unsupportedDepthsAreRefused : Obligations.UnsupportedDepthsAreRefused := by
  intro s h
  have hformat : s.bpp ≠ 1#16 ∨ s.comp ≠ 0#2 := h.imp_right fun ⟨_, hcomp⟩ hzero => by
    rw [hzero] at hcomp
    exact absurd hcomp (by decide)
  exact ⟨_, exec_unpack_fail (unpackFailure_unsupported hformat), rfl, rfl, rfl, outRead_of_empty rfl, rfl⟩

end Sys2Proof.Machine
end

section
/-! A completed UNPACK: its registers (R117) and every byte of `OUT` (R114 to R116). -/

namespace Sys2Proof.Machine

variable {s : State}

/-- The length and the stride of an image that fits do not wrap (R117). -/
theorem unpackImage_lengths (hparams : ParamsLegal s) (h : UnpackAccepts s) :
    (unpackImage s).outLen.toNat = 4 * s.width.toNat * s.height.toNat ∧
    (unpackImage s).outStride.toNat = 4 * s.width.toNat := by
  obtain ⟨-, -, hcap⟩ := hparams
  obtain ⟨⟨-, -, hheight, -, -⟩, -, hcapacity, -⟩ := h
  have hrows : 0 < s.height.toNat := Nat.pos_of_ne_zero (BitVec.toNat_ne.1 hheight)
  have hstride : 4 * s.width.toNat ≤ 4 * s.width.toNat * s.height.toNat := Nat.le_mul_of_pos_right _ hrows
  rw [unpackImage_outLen, unpackImage_outStride, BitVec.toNat_ofNat, BitVec.toNat_ofNat]
  exact ⟨Nat.mod_eq_of_lt (by omega), Nat.mod_eq_of_lt (by omega)⟩

/-- The cursor after the last row does not wrap (R117). -/
theorem unpackImage_pos_toNat (h : GeometryAccepts s) :
    (unpackImage s).pos.toNat = s.dataOffset.toNat + s.height.toNat * rowStep s := by
  obtain ⟨-, -, -, hoffset, hrow⟩ := h
  have hend : s.rowCursor s.height.toNat < 2 ^ 32 :=
    (rowCursor_height_le_fileSize hoffset hrow).trans_lt s.fileSize.isLt
  rw [unpackImage_pos, BitVec.toNat_ofNat, Nat.mod_eq_of_lt hend, State.rowCursor, rowStep_eq]

/-- Every outcome of UNPACK leaves no palette (R117, R140). -/
theorem exec_unpack_palLen {t : State} (h : exec .unpack s = .next t) : t.palLen = 0#32 := by
  cases hf : unpackFailure s with
  | some code => rw [exec_unpack_fail hf] at h; cases h; rfl
  | none => rw [exec_unpack_image hf] at h; cases h; rfl

/-- Settles O37: the registers of `unpackImage`, the released palette, and that only UNPACK writes `OUT`. -/
theorem unpackCompletes : Obligations.UnpackCompletes := by
  refine ⟨fun s hparams h => ?registers, fun s t h => ?released, fun s t hstep => ?writer⟩
  case registers =>
    obtain ⟨hlength, hstride⟩ := unpackImage_lengths hparams h
    exact ⟨unpackImage s, exec_unpack_image (unpackFailure_of_accepts h), rfl, hlength, hstride,
      unpackImage_pos_toNat h.1⟩
  case released =>
    have hnone := exec_unpack_palLen h
    exact ⟨hnone, State.pixelBytes_of_noPalette (State.palPresent_eq_false hnone)⟩
  case writer =>
    obtain ⟨-, -, hout⟩ := step_memories hstep
    exact hout

/-- Byte `k` of the pixel in row `i`, column `j` after UNPACK, at its place of R116. -/
theorem unpackImage_outByte {i j k : Nat} {b : Byte} (hi : i < s.height.toNat) (hj : j < s.width.toNat)
    (hb : (s.pixelBytes (storedBit s i j))[k]? = some b) :
    (unpackImage s).outByte (4 * (i * s.width.toNat + j) + k) = b := by
  have hk : k < 4 := by
    obtain ⟨hk, -⟩ := List.getElem?_eq_some_iff.1 hb
    rwa [State.pixelBytes_length] at hk
  have hplace : s.imageBytes[4 * (i * s.width.toNat + j) + k]? = some b := (s.imageBytes_getElem? hi hj hk).trans hb
  obtain ⟨hlt, -⟩ := List.getElem?_eq_some_iff.1 hplace
  rw [State.outByte, unpackImage_out, Memory.byteAt_writeBytes, if_pos ⟨Nat.zero_le _, by rwa [Nat.zero_add]⟩,
    Nat.sub_zero, hplace, Option.getD_some]

/-- Beyond the image UNPACK leaves `OUT` as it was (R116). -/
theorem unpackImage_outByte_of_le {a : Nat} (ha : 4 * s.width.toNat * s.height.toNat ≤ a) :
    (unpackImage s).outByte a = s.outByte a := by
  have hbeyond : ¬ (0 ≤ a ∧ a < 0 + s.imageBytes.length) := by
    rw [State.imageBytes_length]
    rintro ⟨-, hlt⟩
    linarith
  rw [State.outByte, unpackImage_out, Memory.byteAt_writeBytes, if_neg hbeyond, State.outByte]

/-- The three colours of a monochrome pixel are its bit's, the alpha is 255 (R115). -/
theorem monoPixel_getElem? (bit : Bool) :
    (∀ k, k < 3 → (monoPixel bit)[k]? = some (if bit then 255#8 else 0#8)) ∧ (monoPixel bit)[3]? = some 255#8 := by
  cases bit <;> decide

/-- Settles O38: without a palette the bytes at a pixel's place are those of `monoPixel`. -/
theorem unpackMonochromePixels : Obligations.UnpackMonochromePixels := by
  intro s h hnone
  refine ⟨unpackImage s, exec_unpack_image (unpackFailure_of_accepts h), fun i j hi hj => ?_,
    fun a ha => unpackImage_outByte_of_le ha⟩
  obtain ⟨hcolour, halpha⟩ := monoPixel_getElem? (storedBit s i j)
  rw [← State.pixelBytes_of_noPalette (State.palPresent_eq_false hnone)] at hcolour halpha
  exact ⟨fun k hk => unpackImage_outByte hi hj (hcolour k hk), unpackImage_outByte hi hj halpha⟩

/-- Settles O39: with a palette the bytes at a pixel's place are those of the selected entry; fewer than two entries fail
check 5. -/
theorem unpackPalettePixels : Obligations.UnpackPalettePixels := by
  refine ⟨fun s h hpresent => ?_, fun s hgeometry hpresent hshort =>
    exec_unpack_fail (unpackFailure_palette hgeometry hpresent hshort)⟩
  refine ⟨unpackImage s, exec_unpack_image (unpackFailure_of_accepts h), ?_, fun a ha => unpackImage_outByte_of_le ha⟩
  rintro i j hi hj e rfl
  have hbyte : ∀ {k b}, (s.palettePixel (storedBit s i j))[k]? = some b →
      (unpackImage s).outByte (4 * (i * s.width.toNat + j) + k) = b := fun hb =>
    unpackImage_outByte hi hj (by rwa [State.pixelBytes_of_palette (State.palPresent_iff.2 hpresent)])
  exact ⟨hbyte (k := 0) rfl, hbyte rfl, hbyte rfl, hbyte rfl⟩

end Sys2Proof.Machine
end

section
/-! The acceptance of a word written to `CMD` (R130, R131, R135), and a failure that stays until INIT (R145). -/

namespace Sys2Proof.Machine

/-- The word of INIT is carried out faulted or not (R131, R135). -/
theorem acceptCommand_init (s : State) : acceptCommand (encode .init) s = exec .init s := by
  by_cases herr : s.err = none
  · exact acceptCommand_legal herr (decode_encode rfl)
  · have hfaulted : s.faulted = true := Option.isSome_iff_ne_none.2 herr
    rw [acceptCommand, if_pos hfaulted]
    exact if_pos rfl

/-- The word of NOP changes nothing: carried out when the block is not faulted, else ignored (R130, R135). -/
theorem acceptCommand_nop (s : State) : acceptCommand (encode .nop) s = .next s := by
  by_cases herr : s.err = none
  · exact acceptCommand_legal herr (decode_encode rfl)
  · exact acceptCommand_ignored herr (by decide)

/-- The part of the state that a failure latches: nothing but INIT and hardware reset changes it afterwards (R145). -/
def State.latched (s : State) : Option FailCode × Bool × ChannelRecord × ChannelRecord × ChannelRecord ×
    Word × Word × Word × Memory × Memory :=
  (s.err, s.done, s.chR, s.chG, s.chB, s.palLen, s.outLen, s.outStride, s.pal, s.out)

/-- The outcome is a next state in which what a failure latches, and the list of events, are as in `s`. -/
def KeepsLatched (s : State) (o : Host.Outcome State Fault Refusal) : Prop :=
  ∃ t, o = .next t ∧ t.latched = s.latched ∧ t.pending = s.pending

theorem KeepsLatched.same (s : State) : KeepsLatched s (.next s) := ⟨s, rfl, rfl, rfl⟩

/-- A faulted block stores what the host writes to a register and ignores every command word but that of INIT. -/
theorem writeReg_keepsLatched {s : State} {r : Reg} {data : Word} (herr : s.err ≠ none)
    (hinit : r = .cmd → data ≠ encode .init) : KeepsLatched s (writeReg r data s) := by
  cases r with
  | cmd =>
    rw [writeReg, acceptCommand_ignored herr (hinit rfl)]
    exact .same s
  | _ => exact ⟨_, rfl, rfl, rfl⟩

theorem hostWrite_keepsLatched {s : State} {off : Nat} {data : Word} (herr : s.err ≠ none)
    (hclear : clearsFault (.issue (.wr off data)) = false) : KeepsLatched s (hostWrite off data s) := by
  cases hreg : regAt off with
  | none =>
    rw [hostWrite_of_regAt_none hreg]
    exact .same s
  | some r =>
    rw [hostWrite, hreg]
    refine writeReg_keepsLatched herr ?_
    rintro rfl rfl
    rw [regAt_eq_some hreg] at hclear
    cases hclear

/-- Of the events, only those that `clearsFault` names change what a failure latched (R135, R145). -/
theorem performEvent_keepsLatched {s : State} {e : HostEvent} (herr : s.err ≠ none) (hclear : clearsFault e = false) :
    KeepsLatched s (performEvent e s) := by
  cases e with
  | hardReset => cases hclear
  | placeSrc a b => exact ⟨_, rfl, rfl, rfl⟩
  | issue x =>
    cases x with
    | wr off data => exact hostWrite_keepsLatched herr hclear
    | rd off => exact ⟨_, rfl, rfl, rfl⟩
    | outrd addr => exact ⟨_, rfl, rfl, rfl⟩

/-- A step of a faulted block with no clearing event pending keeps what is latched and brings no new event. -/
theorem step_keepsLatched {s : State} (herr : s.err ≠ none) (hclear : ∀ e ∈ s.pending, clearsFault e = false) :
    ∃ t, step s = .next t ∧ t.latched = s.latched ∧ ∀ e ∈ t.pending, clearsFault e = false := by
  cases hpending : s.pending with
  | nil => exact ⟨s, step_of_pending_nil hpending, rfl, hclear⟩
  | cons e rest =>
    rw [hpending, List.forall_mem_cons] at hclear
    obtain ⟨hfirst, hrest⟩ := hclear
    obtain ⟨t, ht, hlatched, hkept⟩ :=
      performEvent_keepsLatched (s := { s with pending := rest }) herr hfirst
    exact ⟨t, (step_event hpending).trans ht, hlatched, by rwa [hkept]⟩

/-- The same of any number of steps: the block stays faulted, since `ERR` is latched. -/
theorem run_keepsLatched (n : Nat) {s t : State} (herr : s.err ≠ none)
    (hclear : ∀ e ∈ s.pending, clearsFault e = false) (hrun : run n s = .next t) : t.latched = s.latched := by
  induction n generalizing s with
  | zero => cases hrun; rfl
  | succ n ih =>
    obtain ⟨u, hstep, hlatched, hclear'⟩ := step_keepsLatched herr hclear
    have herr' : u.err = s.err := congrArg Prod.fst hlatched
    rw [run_succ n hstep] at hrun
    exact (ih (herr' ▸ herr) hclear' hrun).trans hlatched

/-- Settles O20: a step keeps what is latched and leaves no clearing event pending, so a run does. -/
theorem failureLatchesUntilInit : Obligations.FailureLatchesUntilInit := by
  intro n s t herr hclear hrun
  simpa only [State.latched, Prod.mk.injEq] using run_keepsLatched n herr hclear hrun

/-- Settles O17: one lemma of `acceptCommand` for each branch of R135. -/
theorem commandAcceptance : Obligations.CommandAcceptance := by
  intro s rest w hpending
  rw [step_command hpending]
  refine ⟨?_, fun herr hw => acceptCommand_ignored herr hw, ?_, fun herr i => acceptCommand_legal herr⟩
  · rintro - rfl
    exact acceptCommand_init _
  · rintro herr ⟨e, hd⟩
    exact acceptCommand_illegal herr hd

/-- Settles O2: the word of INIT is accepted always and its effect is `State.initRegs`; any other is ignored while
faulted. -/
theorem initCommandBeginsNewAttempt : Obligations.InitCommandBeginsNewAttempt := by
  refine ⟨fun s rest hpending => ?_, fun s rest w hpending herr hw => ?_⟩
  · exact ⟨State.initRegs { s with pending := rest }, (step_command hpending).trans (acceptCommand_init _), rfl, rfl,
      rfl, outRead_of_empty rfl⟩
  · exact (step_command hpending).trans (acceptCommand_ignored herr hw)

theorem decode_of_decodeTableWord {nbits w : Nat} {i : Instr} (h : decodeTableWord nbits w = some i) :
    decode (tableWord nbits w) = .ok i := by
  unfold decodeTableWord at h
  cases hd : decode (tableWord nbits w) with
  | error e => rw [hd] at h; cases h
  | ok j => rw [hd] at h; cases h; rfl

/-- Settles O16: the word is accepted and legal; `withFetchWord` makes it the next event. -/
theorem stepRunsDecodedCommand : Obligations.StepRunsDecodedCommand := by
  refine ⟨fun s rest w i hpending herr hd => ?_, fun s w i herr hd => ?_⟩
  · exact (step_command hpending).trans (acceptCommand_legal herr hd)
  · have hstep : step (s.withFetchWord 32 w) = acceptCommand (tableWord 32 w) s := step_command rfl
    exact hstep.trans (acceptCommand_legal herr (decode_of_decodeTableWord hd))

/-- Settles O30: the meaning of NOP, and its word carried out or ignored. -/
theorem nopChangesNothing : Obligations.NopChangesNothing :=
  ⟨fun _ => rfl, fun _ _ hpending => (step_command hpending).trans (acceptCommand_nop _)⟩

end Sys2Proof.Machine
end

section
/-! What `WR`, `RD` and `OUTRD` do at every offset and address (R132 to R134). -/

namespace Sys2Proof.Machine

theorem Reg.offset_aligned (r : Reg) : r.offset % 4 = 0 := by
  cases r <;> rfl

/-- No register stands at a misaligned or reserved offset or beyond the space (R44, R52). -/
theorem regAt_eq_none {off : Nat} (h : off % 4 ≠ 0 ∨ 0x70 ≤ off ∨ off ∈ [0x38, 0x3C, 0x4C, 0x5C, 0x6C]) :
    regAt off = none := by
  obtain hmisaligned | hreserved := h
  · cases hreg : regAt off with
    | none => rfl
    | some r => exact absurd (regAt_eq_some hreg ▸ r.offset_aligned) hmisaligned
  · exact regAt_reserved hreserved.symm

/-- A write to a read-only register is ignored (R132). -/
theorem hostWrite_readOnly {off : Nat}
    (h : off ∈ [0x04, 0x2C, 0x30, 0x34, 0x40, 0x44, 0x48, 0x50, 0x54, 0x58, 0x60, 0x64, 0x68]) (data : Word)
    (s : State) : hostWrite off data s = .next s := by
  fin_cases h <;> rfl

/-- Settles O21: no register, a read-only one, or the arm of `writeReg` for the register at the offset. -/
theorem registerWrites : Obligations.RegisterWrites := by
  intro s rest off v hpending
  have hstep : step s = hostWrite off v { s with pending := rest } := step_event hpending
  rw [hstep]
  refine ⟨fun hnone => hostWrite_of_regAt_none (regAt_eq_none hnone) v _, ?_, ?_, ?_, ?_, ?_, ?_, ?_, ?_, ?_, ?_,
    fun hreadOnly => hostWrite_readOnly hreadOnly v _⟩
  all_goals rintro rfl; rfl

/-- The three fields of a channel record, each at its offset (R36). -/
theorem hostRead_channel {c : BitVec 2} (hc : c ≠ 3#2) (s : State) :
    hostRead (0x40 + 0x10 * c.toNat) s = (State.channel c s).mask ∧
    hostRead (0x44 + 0x10 * c.toNat) s = (State.channel c s).lowBit ∧
    hostRead (0x48 + 0x10 * c.toNat) s = (State.channel c s).range := by
  obtain rfl | rfl | rfl : c = 0#2 ∨ c = 1#2 ∨ c = 2#2 := by revert c; decide
  all_goals exact ⟨rfl, rfl, rfl⟩

/-- A read returns 0 where there is no register, and at `CMD` (R133). -/
theorem hostRead_eq_zero {off : Nat}
    (h : off % 4 ≠ 0 ∨ 0x70 ≤ off ∨ off ∈ [0x38, 0x3C, 0x4C, 0x5C, 0x6C] ∨ off = 0x00) (s : State) :
    hostRead off s = 0#32 := by
  by_cases hcmd : off = 0x00
  · rw [hcmd]; rfl
  · rw [or_iff_left hcmd] at h
    exact hostRead_of_regAt_none (regAt_eq_none h) s

/-- The word a read of `STATUS` returns (R23, R133). -/
theorem hostRead_status_toNat (s : State) : (hostRead 0x04 s).toNat =
    s.errNumber + 8 * (if s.done then 1 else 0) + 16 * (if s.palLen ≠ 0#32 then 1 else 0) := by
  simp only [← State.palPresent_iff]
  exact s.statusWord_toNat

/-- A step that serves a read of a register returns its value, whatever else is pending (R133; log 4). -/
theorem step_read {s : State} {rest : List HostEvent} {off : Nat} (h : s.pending = .issue (.rd off) :: rest) :
    step s = .next { s with pending := rest, replies := s.replies ++ [.word (hostRead off s)] } := by
  rw [step_event h, performEvent, transact, hostRead_hostSide off s s.src rest s.replies]
  rfl

/-- Settles O22: the value is that of `hostRead`, register by register. -/
theorem registerReads : Obligations.RegisterReads := by
  intro s rest off hpending
  have hstatus : off = 0x04 → (hostRead off s).toNat =
      s.errNumber + 8 * (if s.done then 1 else 0) + 16 * (if s.palLen ≠ 0#32 then 1 else 0) := by
    rintro rfl
    exact hostRead_status_toNat s
  refine ⟨hostRead off s, step_read hpending, fun hzero => hostRead_eq_zero hzero s, hstatus,
    ?_, ?_, ?_, ?_, ?_, ?_, ?_, ?_, ?_, ?_, ?_, ?_, fun c hc => ?channel⟩
  case channel =>
    obtain ⟨hmask, hlowBit, hrange⟩ := hostRead_channel hc s
    exact ⟨fun h => h ▸ hmask, fun h => h ▸ hlowBit, fun h => h ▸ hrange⟩
  all_goals rintro rfl; rfl

/-- Settles O23: the two branches of `outRead`; an address at or above `OUT_CAP` is at or above `OUT_LEN`. -/
theorem outputReads : Obligations.OutputReads := by
  intro s rest addr hpending
  have habove (h : s.outLen.toNat ≤ addr.toNat) : outRead addr s = 0x00#8 := if_neg h.not_gt
  exact ⟨outRead addr s, step_event hpending, fun h => if_pos h, habove,
    fun hfits hcap => habove (hfits.trans hcap)⟩

end Sys2Proof.Machine
end

section
/-! Every command, every event and every step answers a next state, and the invariant holds of every run from reset
(R53, R142). -/

namespace Sys2Proof.Machine

/-- The code that a command raises when it is carried out, if any: each command's own checks (R142). -/
def commandFailure (i : Instr) (s : State) : Option FailCode :=
  match i with
  | .nop | .init => none
  | .analyze c => if c = 3#2 then some .badCmd else none
  | .ldmask c =>
    if c = 3#2 then some .badCmd else if s.srcLen.toNat < s.pos.toNat + 4 then some .ioError else none
  | .ldpal => if s.copiesPalette then paletteFailure s else none
  | .unpack => unpackFailure s

/-- Every command answers a next state; without an earlier failure its error code there is that of `commandFailure`. -/
theorem exec_completes (i : Instr) (s : State) :
    ∃ t, exec i s = .next t ∧ (s.err = none → t.err = commandFailure i s) := by
  cases i with
  | nop => exact ⟨s, rfl, id⟩
  | init => exact ⟨s.initRegs, rfl, fun _ => rfl⟩
  | analyze c =>
    by_cases hc : c = 3#2
    · exact ⟨s.fail .badCmd, if_pos hc, fun _ => by simp [commandFailure, hc]⟩
    · exact ⟨_, exec_analyze hc s, fun herr => by simp [commandFailure, hc, herr]⟩
  | ldmask c =>
    by_cases hc : c = 3#2
    · exact ⟨s.fail .badCmd, if_pos hc, fun _ => by simp [commandFailure, hc]⟩
    obtain hshort | hfits := lt_or_ge s.srcLen.toNat (s.pos.toNat + 4)
    · exact ⟨_, exec_ldmask_short hc hshort, fun _ => by simp [commandFailure, hc, hshort]⟩
    · exact ⟨_, exec_ldmask_fits hc rfl hfits, fun herr => by simp [commandFailure, hc, hfits.not_gt, herr]⟩
  | ldpal =>
    by_cases hc : s.copiesPalette = true
    case neg => exact ⟨_, exec_ldpal_drop hc, fun herr => by simp [commandFailure, hc, herr]⟩
    cases hf : paletteFailure s with
    | some code => exact ⟨_, exec_ldpal_fail hc hf, fun _ => by simp [commandFailure, hc, hf]⟩
    | none => exact ⟨_, exec_ldpal_copy hc hf, fun herr => by simp [commandFailure, hc, hf, herr]⟩
  | unpack =>
    cases hf : unpackFailure s with
    | some code => exact ⟨_, exec_unpack_fail hf, fun _ => hf.symm⟩
    | none => exact ⟨_, exec_unpack_image hf, fun herr => herr.trans hf.symm⟩

theorem acceptCommand_completes (w : Word) (s : State) : ∃ t, acceptCommand w s = .next t := by
  by_cases herr : s.err = none
  · cases hd : decode w with
    | error e => exact ⟨_, acceptCommand_illegal herr hd⟩
    | ok i =>
      obtain ⟨t, ht, -⟩ := exec_completes i s
      exact ⟨t, (acceptCommand_legal herr hd).trans ht⟩
  · by_cases hw : w = encode .init
    · exact ⟨s.initRegs, hw ▸ acceptCommand_init s⟩
    · exact ⟨s, acceptCommand_ignored herr hw⟩

theorem hostWrite_completes (off : Nat) (data : Word) (s : State) : ∃ t, hostWrite off data s = .next t := by
  cases hreg : regAt off with
  | none => exact ⟨s, hostWrite_of_regAt_none hreg data s⟩
  | some r =>
    rw [hostWrite, hreg]
    cases r with
    | cmd => exact acceptCommand_completes data s
    | _ => exact ⟨_, rfl⟩

theorem performEvent_completes (e : HostEvent) (s : State) : ∃ t, performEvent e s = .next t := by
  cases e with
  | hardReset => exact ⟨_, rfl⟩
  | placeSrc a b => exact ⟨_, rfl⟩
  | issue x =>
    cases x with
    | wr off data => exact hostWrite_completes off data s
    | rd off => exact ⟨_, rfl⟩
    | outrd addr => exact ⟨_, rfl⟩

theorem step_completes (s : State) : ∃ t, step s = .next t := by
  cases hpending : s.pending with
  | nil => exact ⟨s, step_of_pending_nil hpending⟩
  | cons e rest =>
    rw [step_event hpending]
    exact performEvent_completes e _

/-- Settles O18: `step_completes`, and `exec_completes` without what it says of the error code. -/
theorem everyStepCompletes : Obligations.EveryStepCompletes :=
  ⟨step_completes, fun i s => (exec_completes i s).imp fun _ => And.left⟩

/-- From a state that meets the invariant a run of any length answers a next state that meets it. -/
theorem run_stateInv (n : Nat) {s : State} (h : StateInv s) : ∃ t, run n s = .next t ∧ StateInv t := by
  induction n generalizing s with
  | zero => exact ⟨s, rfl, h⟩
  | succ n ih =>
    obtain ⟨u, hstep⟩ := step_completes s
    rw [run_succ n hstep]
    exact ih (stepKeepsInvariant s u h hstep)

/-- Settles O6: the invariant holds at reset and does not speak of the events pending, so `run_stateInv` applies. -/
theorem everyHostProgramRunsSafely : Obligations.EveryHostProgramRunsSafely :=
  fun _ n => run_stateInv n (invariantHoldsAtReset.of_operands rfl)

end Sys2Proof.Machine
end

section
/-! What an event can do to the error code, and what a failed command leaves (R140, R149). -/

namespace Sys2Proof.Machine

/-- After an event the block is not faulted, or it has just failed, or its code and the two lengths are as before. -/
theorem Effect.error_cases {s t : State} (heff : Effect s t) :
    t.err = none ∨ (s.err = none ∧ ∃ code, t = s.fail code) ∨
    (t.err = s.err ∧ t.palLen = s.palLen ∧ t.outLen = s.outLen) := by
  cases heff with
  | init => exact .inl rfl
  | failed code herr => exact .inr (.inl ⟨herr, code, rfl⟩)
  | analyzed c herr => exact .inl (by simpa using herr)
  | maskLoaded c herr v u hr =>
    rw [setChannel_err, readU32LE_frame hr]
    exact .inl herr
  | paletteCopied herr | paletteDropped herr | unpacked herr => exact .inl herr
  | same | reply | place | storeCfg | storeArg | storeSrcLen | storePos | storeFileSize | storeDataOffset | storeWidth
  | storeHeight | storePalSize => exact .inr (.inr ⟨rfl, rfl, rfl⟩)

theorem Effect.leakFree {s t : State} (heff : Effect s t) (h : LeakFree s) : LeakFree t := by
  intro herr
  obtain hnone | ⟨-, code, rfl⟩ | ⟨hkept, hpal, hout⟩ := heff.error_cases
  · exact absurd hnone herr
  · exact ⟨rfl, rfl⟩
  · rw [hpal, hout]
    exact h (hkept ▸ herr)

/-- Settles O8: the reset state is not faulted, and every effect of an event keeps the property. -/
theorem faultedStatesLeakNothing : Obligations.FaultedStatesLeakNothing := by
  refine ⟨invariantHoldsAtReset.leakFree, fun s t h hstep => ?_⟩
  obtain ⟨-, rfl⟩ | ⟨e, rest, -, heff⟩ := step_effect hstep
  · exact h
  · exact heff.leakFree h

/-- An effect that leaves a block with a code it did not have is `Fail` with that code (R140). -/
theorem Effect.eq_fail {s t : State} {code : FailCode} (heff : Effect s t) (hcode : t.err = some code)
    (hnew : t.err ≠ s.err) : s.err = none ∧ t = s.fail code := by
  obtain hnone | ⟨hbefore, code', rfl⟩ | ⟨hkept, -, -⟩ := heff.error_cases
  · rw [hnone] at hcode
    cases hcode
  · cases hcode
    exact ⟨hbefore, rfl⟩
  · exact absurd hkept hnew

/-- Settles O45: the step's effect is `Fail`, and a faulted block ignores the next word unless it is INIT's. -/
theorem failuresArePrecise : Obligations.FailuresArePrecise := by
  intro s t rest w code herr hpending hstep hcode
  rw [step_command hpending] at hstep
  have hnew : t.err ≠ s.err := by simp [hcode, herr]
  obtain ⟨-, rfl⟩ := (acceptCommand_effect hstep).eq_fail hcode hnew
  exact ⟨rfl, fun later v hrest hv => (step_command hrest).trans (acceptCommand_ignored (by simp) hv)⟩

end Sys2Proof.Machine
end

section
/-! The causes of each code (R142), with the earlier check first (R144). -/

namespace Sys2Proof.Machine

/-- The two checks of a copying LDPAL by code; it raises no other (R100, R142). -/
theorem paletteFailure_eq_some_iff (s : State) (code : FailCode) : paletteFailure s = some code ↔
    (code = .outOfMemory ∧ s.palCap < s.palSize.toNat) ∨
    (code = .fileInvalid ∧ s.palSize.toNat ≤ s.palCap ∧ s.srcLen.toNat < s.pos.toNat + s.palSize.toNat) := by
  unfold paletteFailure
  split_ifs with hlarge hshort
  · simp [hlarge, hlarge.not_ge, eq_comm]
  · simp [hlarge, not_lt.1 hlarge, hshort, eq_comm]
  · simp [hlarge, hshort]

/-- The codes of LDPAL: those of its checks, when it copies (R100, R142). -/
theorem commandFailure_ldpal_eq_some_iff (s : State) (code : FailCode) : commandFailure .ldpal s = some code ↔
    (s.bpp.toNat ≤ 8 ∧ 0 < s.palSize.toNat ∧ s.bmiu = false) ∧ paletteFailure s = some code := by
  rw [← s.copiesPalette_iff, commandFailure, Option.ite_none_right_eq_some]

/-- A decoded ANALYZE raises nothing (R91, R142). -/
theorem commandFailure_analyze {c : BitVec 2} (hc : c ≠ 3#2) (s : State) : commandFailure (.analyze c) s = none :=
  if_neg hc

/-- A decoded LDMASK raises `IO_ERROR` alone, on a short read (R92, R142). -/
theorem commandFailure_ldmask_eq_some_iff {c : BitVec 2} (hc : c ≠ 3#2) (s : State) (code : FailCode) :
    commandFailure (.ldmask c) s = some code ↔ s.srcLen.toNat < s.pos.toNat + 4 ∧ code = .ioError := by
  rw [commandFailure, if_neg hc, Option.ite_none_right_eq_some, Option.some_inj, eq_comm (a := code)]

/-- The seven checks of UNPACK by code, each reached when those before it passed (R110, R142, R144). -/
theorem unpackFailure_eq_some_iff (s : State) :
    (unpackFailure s = some .fileNotSupported ↔ s.bpp ≠ 1#16 ∨ s.comp ≠ 0#2) ∧
    (unpackFailure s = some .outOfMemory ↔ s.bpp = 1#16 ∧ s.comp = 0#2 ∧ s.height ≠ 0#32 ∧
      s.dataOffset.toNat ≤ s.fileSize.toNat ∧ s.width.toNat ≤ 8 * s.declaredRow ∧
      ¬ (s.palLen ≠ 0#32 ∧ s.palLen.toNat < 2 * s.elementSize) ∧
      s.outCap < 4 * s.width.toNat * s.height.toNat) ∧
    (unpackFailure s = some .fileInvalid ↔ s.bpp = 1#16 ∧ s.comp = 0#2 ∧
      (s.height = 0#32 ∨ s.fileSize.toNat < s.dataOffset.toNat ∨ 8 * s.declaredRow < s.width.toNat ∨
        (s.palLen ≠ 0#32 ∧ s.palLen.toNat < 2 * s.elementSize))) ∧
    (unpackFailure s = some .ioError ↔ s.bpp = 1#16 ∧ s.comp = 0#2 ∧ s.height ≠ 0#32 ∧
      s.dataOffset.toNat ≤ s.fileSize.toNat ∧ s.width.toNat ≤ 8 * s.declaredRow ∧
      ¬ (s.palLen ≠ 0#32 ∧ s.palLen.toNat < 2 * s.elementSize) ∧
      4 * s.width.toNat * s.height.toNat ≤ s.outCap ∧ 0 < s.width.toNat ∧
      s.srcLen.toNat < s.dataOffset.toNat + (s.height.toNat - 1) * s.rowAdvance + ceil8 s.width.toNat) ∧
    unpackFailure s ≠ some .badCmd := by
  simp only [unpackFailure, State.palPresent_iff, State.rowCursor, ← not_lt]
  split_ifs with hformat hheight hoffset hrow hpalette hcapacity hsource
  · have hrefused : ∀ p : Prop, ¬ (s.bpp = 1#16 ∧ s.comp = 0#2 ∧ p) := by tauto
    simp only [hformat, hrefused, Option.some_inj, reduceCtorEq, ne_eq, not_false_eq_true, and_self]
  all_goals
    obtain ⟨hbpp, hcomp⟩ : s.bpp = 1#16 ∧ s.comp = 0#2 := by simpa using hformat
    simp [*]

/-- The code after a word written to a block that is not faulted: `BAD_CMD`, or that of the command (R135, R142). -/
theorem step_command_err {s t : State} {rest : List HostEvent} {w : Word} (herr : s.err = none)
    (hpending : s.pending = .issue (.wr 0x00 w) :: rest) (hstep : step s = .next t) :
    (∃ e, decode w = .error e) ∧ t.err = some .badCmd ∨ ∃ i, decode w = .ok i ∧ t.err = commandFailure i s := by
  rw [step_command hpending] at hstep
  cases hd : decode w with
  | error e =>
    rw [acceptCommand_illegal (s := { s with pending := rest }) herr hd] at hstep
    cases hstep
    exact .inl ⟨⟨e, rfl⟩, rfl⟩
  | ok i =>
    rw [acceptCommand_legal (s := { s with pending := rest }) herr hd] at hstep
    obtain ⟨u, hu, hcode⟩ := exec_completes i { s with pending := rest }
    obtain rfl : u = t := Host.Outcome.next.inj (hu.symm.trans hstep)
    exact .inr ⟨i, rfl, hcode herr⟩

/-- Of the events only a word written to `CMD` can leave a code in a block that is not faulted (R142). -/
theorem performEvent_raises {e : HostEvent} {s t : State} (h : performEvent e s = .next t) (herr : s.err = none)
    (hraised : t.err ≠ none) : ∃ w, e = .issue (.wr 0x00 w) := by
  by_contra hother
  apply hraised
  cases e with
  | hardReset => cases h; rfl
  | placeSrc a b => cases h; exact herr
  | issue x =>
    cases x with
    | rd off => cases h; exact herr
    | outrd addr => cases h; exact herr
    | wr off data =>
      have h : hostWrite off data s = .next t := h
      cases hreg : regAt off with
      | none => rw [hostWrite_of_regAt_none hreg] at h; cases h; exact herr
      | some r =>
        rw [hostWrite, hreg] at h
        cases r with
        | cmd => exact absurd ⟨data, by rw [regAt_eq_some hreg]; rfl⟩ hother
        | _ => cases h; exact herr

/-- A step that leaves a code that was not there served a word written to `CMD` of a block that was not faulted
(R140, R142). -/
theorem step_raises {s t : State} (hstep : step s = .next t) (hraised : t.err ≠ none) (hnew : t.err ≠ s.err) :
    s.err = none ∧ ∃ w rest, s.pending = .issue (.wr 0x00 w) :: rest := by
  cases hpending : s.pending with
  | nil =>
    rw [step_of_pending_nil hpending] at hstep
    cases hstep
    exact absurd rfl hnew
  | cons e rest =>
    rw [step_event hpending] at hstep
    obtain ⟨code, hcode⟩ := Option.ne_none_iff_exists'.1 hraised
    obtain ⟨herr, -⟩ := (performEvent_effect hstep).eq_fail hcode hnew
    obtain ⟨w, rfl⟩ := performEvent_raises hstep herr hraised
    exact ⟨herr, w, rest, rfl⟩

/-- Settles O46: the code is that of the word's command, whose causes are its lemma's; no other event raises one. -/
theorem failureCausesAreExhaustive : Obligations.FailureCausesAreExhaustive := by
  refine ⟨fun s t rest w herr hpending hstep => ?_, fun s t => step_raises⟩
  obtain ⟨⟨e, hd⟩, hcode⟩ | ⟨i, hd, hcode⟩ := step_command_err herr hpending hstep
  · simp [hd, hcode]
  · have hwf := wellFormed_of_decode hd
    cases i with
    | nop => simp [hd, hcode, commandFailure]
    | init => simp [hd, hcode, commandFailure]
    | analyze c => simp [hd, hcode, commandFailure_analyze (wellFormed_analyze.1 hwf)]
    | ldmask c => simp [hd, hcode, commandFailure_ldmask_eq_some_iff (wellFormed_ldmask.1 hwf)]
    | ldpal => simp [hd, hcode, commandFailure_ldpal_eq_some_iff, paletteFailure_eq_some_iff]
    | unpack =>
      obtain ⟨hnotSupported, houtOfMemory, hfileInvalid, hioError, hbadCmd⟩ := unpackFailure_eq_some_iff s
      simp [hd, hcode, commandFailure, hnotSupported, houtOfMemory, hfileInvalid, hioError, hbadCmd]

end Sys2Proof.Machine
end

section
/-! `DONE` and `ERR` exclude each other, an accepted UNPACK sets one of them (R168), and hardware reset (R160). -/

namespace Sys2Proof.Machine

/-- A failure clears `DONE`, and UNPACK sets it only when `ERR` is 0: no event leaves both set (R135, R140). -/
theorem Effect.doneExcludesErr {s t : State} (heff : Effect s t) (h : DoneExcludesErr s) : DoneExcludesErr t := by
  intro hdone
  cases heff with
  | init => rfl
  | failed code => cases hdone
  | analyzed c herr => exact (setChannel_err _ _ _).trans herr
  | maskLoaded c herr v u hr =>
    rw [setChannel_err, readU32LE_frame hr]
    exact herr
  | paletteCopied herr | paletteDropped herr | unpacked herr => exact herr
  | same | reply | place | storeCfg | storeArg | storeSrcLen | storePos | storeFileSize | storeDataOffset | storeWidth
  | storeHeight | storePalSize => exact h hdone

/-- Settles O10: an idle step changes nothing, and every effect of an event keeps the property. -/
theorem doneAndErrNeverTogether : Obligations.DoneAndErrNeverTogether := by
  intro s t h hstep
  rw [not_and_not_right] at h ⊢
  obtain ⟨-, rfl⟩ | ⟨e, rest, -, heff⟩ := step_effect hstep
  · exact h
  · exact heff.doneExcludesErr h

/-- Settles O44: the word is carried out, and either one of the seven checks fails or the image is written. -/
theorem acceptedUnpackEndsTheAttempt : Obligations.AcceptedUnpackEndsTheAttempt := by
  intro s rest herr hpending
  rw [stepRunsDecodedCommand.1 s rest (encode .unpack) .unpack hpending herr (decode_encode rfl)]
  cases hf : unpackFailure { s with pending := rest } with
  | some code => exact ⟨_, exec_unpack_fail hf, .inr ⟨rfl, Option.some_ne_none code⟩⟩
  | none => exact ⟨_, exec_unpack_image hf, .inl ⟨rfl, herr⟩⟩

/-- Settles O3: hardware reset and INIT are both `State.initRegs`. -/
theorem hardResetEqualsInit : Obligations.HardResetEqualsInit := by
  intro s rest hpending
  exact ⟨State.initRegs { s with pending := rest }, step_event hpending, rfl, rfl, rfl, rfl, outRead_of_empty rfl⟩

end Sys2Proof.Machine
end
